-- ==== Sys2Proof/Word.lean ====
section
/-!
DEFINITION. The value types of the eAES core: bytes, 32-bit words, 16-byte blocks (00_scope.md R8; 10_state.md R21).
-/

namespace Sys2Proof

/-- An unsigned 8-bit value, bit 7 the most significant (R8); as a field element, bit `i` is the coefficient of
x^i (R90), and addition is `^^^`. -/
abbrev Byte := BitVec 8

/-- An unsigned 32-bit value, bit 31 the most significant (R8). -/
abbrev Word := BitVec 32

/-- A block of 16 bytes (R6, R21). -/
abbrev Block := Vector Byte 16

end Sys2Proof
end

