-- ==== Sys2Proof/Syntax.lean ====
section
/-!
DEFINITION. The 19 commands of the eAES-CORE command set, version 1: one constructor per row of
spec/opcode_table.json (30_encoding.md R73).
-/

namespace Sys2Proof

/-- A command. Byte operands are the fields `a` and `b` of the command word, used as they stand (R72). -/
inductive Instr where
  /-- 0x00, 46_system.md R170. -/
  | nop
  /-- 0x01, 40_field_arithmetic.md R94. -/
  | gfmul (a b : Byte)
  /-- 0x02, 40_field_arithmetic.md R95. -/
  | gfinv (a : Byte)
  /-- 0x03, 41_sbox.md R102. -/
  | sbox (a : Byte)
  /-- 0x04, 41_sbox.md R103. -/
  | isbox (a : Byte)
  /-- 0x10, 42_round_transforms.md R112. -/
  | subbytes
  /-- 0x11, 42_round_transforms.md R113. -/
  | invsubbytes
  /-- 0x12, 42_round_transforms.md R115. -/
  | shiftrows
  /-- 0x13, 42_round_transforms.md R116. -/
  | invshiftrows
  /-- 0x14, 42_round_transforms.md R118. -/
  | mixcolumns
  /-- 0x15, 42_round_transforms.md R119. -/
  | invmixcolumns
  /-- 0x16, 42_round_transforms.md R122. The round number is "a natural number 0..255" (R72). -/
  | addroundkey (n : Nat)
  /-- 0x20, 43_key_schedule.md R134. -/
  | expandkey
  /-- 0x30, 44_cipher_driver.md R142. -/
  | encblk
  /-- 0x31, 44_cipher_driver.md R143. -/
  | decblk
  /-- 0x40, 45_mode_layer.md R153. -/
  | ecbenc
  /-- 0x41, 45_mode_layer.md R154. -/
  | ecbdec
  /-- 0x42, 45_mode_layer.md R157. -/
  | cbcenc
  /-- 0x43, 45_mode_layer.md R158. -/
  | cbcdec
deriving DecidableEq, Repr

end Sys2Proof
end

