-- ==== Sys2Proof/WellFormed.lean ====
section
/-!
DEFINITION. Which terms of `Instr` are commands of the hardware. The byte operands are bytes by type; the one check
is the round number of ADDROUNDKEY, which must fit its 8-bit field (30_encoding.md R72).
-/

namespace Sys2Proof

/-- The operand fits the field that holds it. -/
def Instr.wellFormed : Instr → Bool
  | .addroundkey n => n < 256
  | .nop => true
  | .gfmul _ _ => true
  | .gfinv _ => true
  | .sbox _ => true
  | .isbox _ => true
  | .subbytes => true
  | .invsubbytes => true
  | .shiftrows => true
  | .invshiftrows => true
  | .mixcolumns => true
  | .invmixcolumns => true
  | .expandkey => true
  | .encblk => true
  | .decblk => true
  | .ecbenc => true
  | .ecbdec => true
  | .cbcenc => true
  | .cbcdec => true

end Sys2Proof
end

