-- ==== Sys2Proof/Decode.lean ====
section
/-!
DEFINITION. The command word (30_encoding.md R71, R72), the opcode table (R73), the decoder with its named rejections
(R74), and the encoder.
-/

namespace Sys2Proof

/-! ### Fields of the command word (R71) -/

/-- `op`, bits 7:0. -/
def fieldOp (w : Word) : Byte := w.extractLsb' 0 8

/-- `a`, bits 15:8. -/
def fieldA (w : Word) : Byte := w.extractLsb' 8 8

/-- `b`, bits 23:16. -/
def fieldB (w : Word) : Byte := w.extractLsb' 16 8

/-- `z`, bits 31:24. -/
def fieldZ (w : Word) : Byte := w.extractLsb' 24 8

/-! ### The decoder -/

/-- Why a word is illegal: the three cases of R74, the third one split by field. -/
inductive DecodeError where
  /-- `op` is not one of the 19 opcodes (R74 a). -/
  | unassignedOpcode
  /-- `z` is not zero (R74 b). -/
  | topByteNotZero
  /-- `a` is not zero and the command does not use it (R74 c). -/
  | unusedANotZero
  /-- `b` is not zero and the command does not use it (R74 c). -/
  | unusedBNotZero
deriving DecidableEq, Repr

/-- A command that uses the field `a` alone: `b` must be zero (R74 c). -/
def decodeUnary (w : Word) (f : Byte → Instr) : Except DecodeError Instr :=
  if fieldB w ≠ 0 then .error .unusedBNotZero else .ok (f (fieldA w))

/-- A command without operands: `a` and `b` must be zero (R74 c). -/
def decodeBare (w : Word) (i : Instr) : Except DecodeError Instr :=
  if fieldB w ≠ 0 then .error .unusedBNotZero
  else if fieldA w ≠ 0 then .error .unusedANotZero
  else .ok i

/-- The command a word stands for (R73), or why it is illegal (R74). -/
def decode (w : Word) : Except DecodeError Instr :=
  if fieldZ w ≠ 0 then .error .topByteNotZero
  else match (fieldOp w).toNat with
    | 0x00 => decodeBare w .nop
    | 0x01 => .ok (.gfmul (fieldA w) (fieldB w))
    | 0x02 => decodeUnary w .gfinv
    | 0x03 => decodeUnary w .sbox
    | 0x04 => decodeUnary w .isbox
    | 0x10 => decodeBare w .subbytes
    | 0x11 => decodeBare w .invsubbytes
    | 0x12 => decodeBare w .shiftrows
    | 0x13 => decodeBare w .invshiftrows
    | 0x14 => decodeBare w .mixcolumns
    | 0x15 => decodeBare w .invmixcolumns
    | 0x16 => decodeUnary w fun a => .addroundkey a.toNat
    | 0x20 => decodeBare w .expandkey
    | 0x30 => decodeBare w .encblk
    | 0x31 => decodeBare w .decblk
    | 0x40 => decodeBare w .ecbenc
    | 0x41 => decodeBare w .ecbdec
    | 0x42 => decodeBare w .cbcenc
    | 0x43 => decodeBare w .cbcdec
    | _ => .error .unassignedOpcode

/-- The word written to CMD for a table row whose bits are `w`. A command is one 32-bit word (R71) and the table gives
each row all 32 bits, so bits at and above `nbits` are zero. -/
def tableWord (nbits w : Nat) : Word := BitVec.ofNat 32 (w % 2 ^ nbits)

/-- What the decoder reads from a table row's word. -/
def decodeTableWord (nbits w : Nat) : Option Instr :=
  match decode (tableWord nbits w) with
  | .ok i => some i
  | .error _ => none

/-! ### The encoder -/

/-- A command word from its fields, `z = 0` (R71). -/
def commandWord (op a b : Byte) : Word :=
  op.setWidth 32 ||| (a.setWidth 32 <<< 8) ||| (b.setWidth 32 <<< 16)

/-- The opcode of a command (R73). -/
def Instr.opcode : Instr → Byte
  | .nop => 0x00
  | .gfmul _ _ => 0x01
  | .gfinv _ => 0x02
  | .sbox _ => 0x03
  | .isbox _ => 0x04
  | .subbytes => 0x10
  | .invsubbytes => 0x11
  | .shiftrows => 0x12
  | .invshiftrows => 0x13
  | .mixcolumns => 0x14
  | .invmixcolumns => 0x15
  | .addroundkey _ => 0x16
  | .expandkey => 0x20
  | .encblk => 0x30
  | .decblk => 0x31
  | .ecbenc => 0x40
  | .ecbdec => 0x41
  | .cbcenc => 0x42
  | .cbcdec => 0x43

/-- The word of a command: the opcode and the operand fields it uses, the others zero (R72, R73). -/
def encode (i : Instr) : Word :=
  match i with
  | .gfmul a b => commandWord i.opcode a b
  | .gfinv a => commandWord i.opcode a 0
  | .sbox a => commandWord i.opcode a 0
  | .isbox a => commandWord i.opcode a 0
  | .addroundkey n => commandWord i.opcode (BitVec.ofNat 8 n) 0
  | .nop => commandWord i.opcode 0 0
  | .subbytes => commandWord i.opcode 0 0
  | .invsubbytes => commandWord i.opcode 0 0
  | .shiftrows => commandWord i.opcode 0 0
  | .invshiftrows => commandWord i.opcode 0 0
  | .mixcolumns => commandWord i.opcode 0 0
  | .invmixcolumns => commandWord i.opcode 0 0
  | .expandkey => commandWord i.opcode 0 0
  | .encblk => commandWord i.opcode 0 0
  | .decblk => commandWord i.opcode 0 0
  | .ecbenc => commandWord i.opcode 0 0
  | .ecbdec => commandWord i.opcode 0 0
  | .cbcenc => commandWord i.opcode 0 0
  | .cbcdec => commandWord i.opcode 0 0

/-! ### The opcode table as R73 prints it, against which decoder and encoder are stated -/

/-- A row of R73: a word `cmd` is this command exactly when `cmd & mask == bits`. -/
structure OpcodeRow where
  mnemonic : String
  mask : Word
  bits : Word
deriving DecidableEq, Repr

/-- The 19 rows of R73, in the table's order. -/
def opcodeTable : List OpcodeRow :=
  [ ⟨"NOP", 0xFFFFFFFF, 0x00000000⟩,
    ⟨"GFMUL", 0xFF0000FF, 0x00000001⟩,
    ⟨"GFINV", 0xFFFF00FF, 0x00000002⟩,
    ⟨"SBOX", 0xFFFF00FF, 0x00000003⟩,
    ⟨"ISBOX", 0xFFFF00FF, 0x00000004⟩,
    ⟨"SUBBYTES", 0xFFFFFFFF, 0x00000010⟩,
    ⟨"INVSUBBYTES", 0xFFFFFFFF, 0x00000011⟩,
    ⟨"SHIFTROWS", 0xFFFFFFFF, 0x00000012⟩,
    ⟨"INVSHIFTROWS", 0xFFFFFFFF, 0x00000013⟩,
    ⟨"MIXCOLUMNS", 0xFFFFFFFF, 0x00000014⟩,
    ⟨"INVMIXCOLUMNS", 0xFFFFFFFF, 0x00000015⟩,
    ⟨"ADDROUNDKEY", 0xFFFF00FF, 0x00000016⟩,
    ⟨"EXPANDKEY", 0xFFFFFFFF, 0x00000020⟩,
    ⟨"ENCBLK", 0xFFFFFFFF, 0x00000030⟩,
    ⟨"DECBLK", 0xFFFFFFFF, 0x00000031⟩,
    ⟨"ECBENC", 0xFFFFFFFF, 0x00000040⟩,
    ⟨"ECBDEC", 0xFFFFFFFF, 0x00000041⟩,
    ⟨"CBCENC", 0xFFFFFFFF, 0x00000042⟩,
    ⟨"CBCDEC", 0xFFFFFFFF, 0x00000043⟩ ]

/-- The mnemonic of a command as R73 spells it. -/
def Instr.mnemonic : Instr → String
  | .nop => "NOP"
  | .gfmul _ _ => "GFMUL"
  | .gfinv _ => "GFINV"
  | .sbox _ => "SBOX"
  | .isbox _ => "ISBOX"
  | .subbytes => "SUBBYTES"
  | .invsubbytes => "INVSUBBYTES"
  | .shiftrows => "SHIFTROWS"
  | .invshiftrows => "INVSHIFTROWS"
  | .mixcolumns => "MIXCOLUMNS"
  | .invmixcolumns => "INVMIXCOLUMNS"
  | .addroundkey _ => "ADDROUNDKEY"
  | .expandkey => "EXPANDKEY"
  | .encblk => "ENCBLK"
  | .decblk => "DECBLK"
  | .ecbenc => "ECBENC"
  | .ecbdec => "ECBDEC"
  | .cbcenc => "CBCENC"
  | .cbcdec => "CBCDEC"

end Sys2Proof
end

