-- ==== Sys2Proof/Config.lean ====
section
/-!
DEFINITION. What a core's implementation fixes (`DMEM_BYTES`), what an unlisted byte of DMEM reads as, and the free
values the Reset operation leaves in the data registers.
-/

namespace Sys2Proof

/-- The one open parameter of the hardware (00_scope.md R7, 92_eei_decisions.md D9, U5). It is fixed for a core:
State carries it and no step changes it (log entry 1). -/
structure Config where
  /-- `DMEM_BYTES`, the number of bytes of DMEM. -/
  dmemBytes : Nat
deriving DecidableEq, Repr

/-- `DMEM_BYTES` is "at least 16 and at most 2^32" (20_memory.md R50). -/
abbrev Config.wf (c : Config) : Prop := 16 ≤ c.dmemBytes ∧ c.dmemBytes ≤ 2 ^ 32

/-- The configuration of `State.reset`. DESIGN CHOICE (log entry 1): the spec leaves `DMEM_BYTES` open, its examples
use 256. -/
def Config.default : Config := { dmemBytes := 256 }

/-- What a byte of DMEM that no entry lists reads as. DESIGN CHOICE (log entry 3): the spec leaves it unspecified
(10_state.md R36, U2). -/
def Config.unlistedByte : Byte := 0

/-- Byte `i` of S after the `n`-th Reset operation: a free value (R36, R210, U1; log entry 4). -/
opaque Config.freeBlockByte (n i : Nat) : Byte

/-- Byte `i` of K after the `n`-th Reset operation: a free value (R36, R210, U1; log entry 4). -/
opaque Config.freeKeyByte (n i : Nat) : Byte

/-- Byte `i` of V after the `n`-th Reset operation: a free value (R36, R210, U1; log entry 4). -/
opaque Config.freeIvByte (n i : Nat) : Byte

/-- Word `i` of W after the `n`-th Reset operation: a free value (R36, R210, U1; log entry 4). -/
opaque Config.freeSchedWord (n i : Nat) : Word

end Sys2Proof
end

