-- ==== Sys2Proof/Machine/State.lean ====
section
/-!
DEFINITION. The state of one eAES core (10_state.md R20), of the host beside it (46_system.md R171, R175), the ways a
step can stop, and the state right after reset (R36).
-/

namespace Sys2Proof.Machine

/-! ### Status (R30, R180) -/

/-- The cause of the latest command's failure (60_exceptions.md R180). Codes 7 to 15 are never produced (U11), so the
type has the seven causes that are. -/
inductive Cause where
  /-- 0, success. -/
  | none
  /-- 1, the word matches no command. -/
  | illegalCmd
  /-- 2, `DLEN == 0`. -/
  | lenZero
  /-- 3, `DLEN mod 16 != 0`. -/
  | lenUnaligned
  /-- 4, `DPTR + DLEN > DMEM_BYTES`. -/
  | range
  /-- 5, `STATUS.SCHED_VALID == 0`. -/
  | noSchedule
  /-- 6, `n > Nr(KSEL)` with a valid schedule; fatal. -/
  | roundRange
deriving DecidableEq, Repr

/-- STATUS (R30): three flags and a cause. The reserved bits read zero and are not stored. -/
structure Status where
  /-- ERR, bit 0. -/
  err : Bool
  /-- SCHED_VALID, bit 1 (R31). -/
  schedValid : Bool
  /-- FATAL, bit 2, sticky (R186). -/
  fatal : Bool
  /-- CAUSE, bits 7:4. -/
  cause : Cause
deriving DecidableEq, Repr

/-! ### The data memory -/

/-- DMEM as the list of its bytes that differ from `Config.unlistedByte`, by rising address (R50; log entry 3). -/
abbrev Memory := List Host.Cell

/-- The canonical form: addresses strictly rising, no entry equal to what an unlisted address reads as. -/
abbrev Memory.wf (m : Memory) : Prop :=
  m.Pairwise (fun x y => x.1 < y.1) ∧ ∀ c ∈ m, c.2 ≠ Config.unlistedByte

/-! ### The host -/

/-- The registers of the register map (R35), by name. -/
inductive Reg where
  /-- 0x000, write only. -/
  | cmd
  /-- 0x004, read only. -/
  | status
  /-- 0x008. -/
  | ksel
  /-- 0x00C, read only. -/
  | res
  /-- 0x010. -/
  | dptr
  /-- 0x014. -/
  | dlen
  /-- 0x020 + 4*j, K bytes 4j..4j+3 (R22). -/
  | key (j : Fin 8)
  /-- 0x040 + 4*c, S bytes 4c..4c+3 (R21). -/
  | blk (c : Fin 4)
  /-- 0x050 + 4*c, V bytes 4c..4c+3 (R23). -/
  | iv (c : Fin 4)
  /-- 0x100 + 4*i, `W[i]`, read only (R25). -/
  | rk (i : Fin 60)
deriving DecidableEq, Repr

/-- The five host operations (R171). Register accesses are 32 bits wide, DMEM accesses one byte (R53): no other width
is a move of the host (log entry 6). -/
inductive HostOp where
  /-- `RegRead(off)`. -/
  | regRead (off : Nat)
  /-- `RegWrite(off, v)`. -/
  | regWrite (off : Nat) (v : Word)
  /-- `DmemRead(addr)`. -/
  | dmemRead (addr : Nat)
  /-- `DmemWrite(addr, v)`. -/
  | dmemWrite (addr : Nat) (v : Byte)
  /-- `Reset`. -/
  | reset
deriving DecidableEq, Repr

/-- What a read returned to the host (R171, R175). -/
inductive Reply where
  /-- The word a register read returned. -/
  | word (w : Word)
  /-- The byte a DMEM read returned. -/
  | byte (b : Byte)
deriving DecidableEq, Repr

/-! ### Ways a step can stop -/

/-- Faults: there is none. A failing command is a next state with ERR set (R187), a state with FATAL = 1 goes on until
Reset (R186; log entry 9), and an access outside the maps is refused (U3, U4). -/
inductive Fault where
deriving DecidableEq, Repr

/-- Refusals. No command raises one once it has its meaning. -/
inductive Refusal where
  /-- Raised by `exec` for an instruction without a meaning. Safe: the machine stops. -/
  | notModelled (mnemonic : String)
  /-- Raised by the host operations RegRead and RegWrite at an offset that is reserved, not a multiple of 4, or above
  0xFFF (R35, U3; log entry 6). Safe: the machine stops where the spec gives no behaviour. -/
  | reservedOffset (off : Nat)
  /-- Raised by the host operations DmemRead and DmemWrite at an address that does not exist, `addr >= DMEM_BYTES`
  (R171, U4; log entry 7). Safe: the machine stops where the spec gives no behaviour. -/
  | dmemOutOfRange (addr : Nat)
deriving DecidableEq, Repr

/-! ### The state -/

/-- The state of one core and its host. The first ten fields are R20's list, in its order (STATUS is one field); the last four are the model's own. -/
structure State where
  /-- S, the state block; the byte at row R, column C is `block[4*C + R]` (R21). -/
  block : Block
  /-- K, the raw key bytes (R22). -/
  key : Vector Byte 32
  /-- V, the CBC initialization vector (R23). -/
  iv : Block
  /-- RES, the byte result (R24). -/
  res : Byte
  /-- W, the schedule store (R25). -/
  sched : Vector Word 60
  /-- KSEL, the key-size selector (R26). -/
  ksel : Word
  /-- DPTR, the first address of the data buffer (R28). -/
  dptr : Word
  /-- DLEN, the length of the data buffer in bytes (R28). -/
  dlen : Word
  /-- STATUS (R30). -/
  status : Status
  /-- DMEM (R33, R50). -/
  dmem : Memory
  /-- The core's fixed configuration (R7; log entry 1). -/
  cfg : Config
  /-- The host operations not yet issued, oldest first (R58, R175; log entry 5). -/
  host : List HostOp
  /-- The values the host's reads returned, oldest first (R175; log entry 5). -/
  replies : List Reply
  /-- How many Reset operations there were: it keeps the free values of each of them apart (log entry 4). -/
  resets : Nat
deriving DecidableEq, Repr

/-- STATUS after reset (R36). -/
def Status.reset : Status := { err := false, schedValid := false, fatal := false, cause := .none }

/-- The machine right after reset (R36). S, K, V and W, which R36 leaves unspecified, are zero: DESIGN CHOICE (log
entry 2). No host operation is pending (log entry 5). -/
def State.reset : State where
  block := Vector.replicate 16 0
  key := Vector.replicate 32 0
  iv := Vector.replicate 16 0
  res := 0
  sched := Vector.replicate 60 0
  ksel := 0
  dptr := 0
  dlen := 0
  status := Status.reset
  dmem := []
  cfg := Config.default
  host := []
  replies := []
  resets := 0

/-- The outcome of a step or of a command. -/
abbrev Result := Host.Outcome State Fault Refusal

end Sys2Proof.Machine
end

