-- ==== Sys2Proof/Machine/Operands.lean ====
section
/-!
DEFINITION. Operand forms: bytes of words and words of bytes (00_scope.md R9, R10), the word views of the byte
registers (10_state.md R37), rows and columns of a block (R21), and the cipher parameters KSEL selects (R27).
-/

namespace Sys2Proof.Machine

/-! ### Bytes and words (R9, R10) -/

/-- `byte(w, r) = w[8*r+7 : 8*r]`. -/
def byteOf (w : Word) (r : Nat) : Byte := w.extractLsb' (8 * r) 8

/-- `pack(b0, b1, b2, b3)`: little-endian packing, `b0` in the least significant byte. -/
def pack (b0 b1 b2 b3 : Byte) : Word :=
  b0.setWidth 32 ||| (b1.setWidth 32 <<< 8) ||| (b2.setWidth 32 <<< 16) ||| (b3.setWidth 32 <<< 24)

/-- `rotl8(v, n)`, for `1 <= n <= 7`. -/
def rotl8 (v : Byte) (n : Nat) : Byte := (v <<< n) ||| (v >>> (8 - n))

/-! ### Word views of byte registers (R37) -/

/-- Word `j` of a byte register: `pack` of its bytes 4j..4j+3. -/
def wordAt {n : Nat} (v : Vector Byte n) (j : Nat) : Word :=
  pack (v.getD (4 * j) 0) (v.getD (4 * j + 1) 0) (v.getD (4 * j + 2) 0) (v.getD (4 * j + 3) 0)

/-- A byte register with its word `j` written: byte `4j + r` becomes `byte(w, r)`. -/
def setWordAt {n : Nat} (v : Vector Byte n) (j : Nat) (w : Word) : Vector Byte n :=
  Vector.ofFn fun i => if i.val / 4 = j then byteOf w (i.val % 4) else v[i]

/-! ### Rows and columns of a block (R21) -/

/-- The byte at row `row`, column `col`: offset `4*col + row`. -/
def cell (s : Block) (col row : Fin 4) : Byte := s[4 * col.val + row.val]

/-- The block whose byte at row R, column C is `f C R`. -/
def ofCells (f : Fin 4 → Fin 4 → Byte) : Block :=
  Vector.ofFn fun i => f ⟨i.val / 4, by omega⟩ ⟨i.val % 4, by omega⟩

/-- `xor_block(x, y)` (45_mode_layer.md R155). -/
def xorBlock (x y : Block) : Block := Vector.ofFn fun i => x[i] ^^^ y[i]

/-! ### The cipher parameters of the present key size (R27) -/

/-- `Nk(KSEL)`: the key size in words. Every value but 128 and 192 selects AES-256. -/
def keyWords (ksel : Word) : Nat :=
  if ksel = 128 then 4 else if ksel = 192 then 6 else 8

/-- `Nr(KSEL)`: the number of rounds. -/
def rounds (ksel : Word) : Nat :=
  if ksel = 128 then 10 else if ksel = 192 then 12 else 14

/-- `4*(Nr(KSEL)+1)`: the length of the schedule in words. -/
def schedWords (ksel : Word) : Nat := 4 * (rounds ksel + 1)

end Sys2Proof.Machine
end

