-- ==== Sys2Proof/Machine/Flags.lean ====
section
/-!
DEFINITION. STATUS: its cause codes (60_exceptions.md R180), its word as the host reads it (10_state.md R30), and what
each event writes into it (R30, R31, R187, R186).
-/

namespace Sys2Proof.Machine

/-- The code of a cause (R180). -/
def Cause.code : Cause → Nat
  | .none => 0
  | .illegalCmd => 1
  | .lenZero => 2
  | .lenUnaligned => 3
  | .range => 4
  | .noSchedule => 5
  | .roundRange => 6

/-- A flag as a one-bit word. -/
def flagWord (b : Bool) : Word := if b then 1 else 0

/-- `ERR | (SCHED_VALID << 1) | (FATAL << 2) | (CAUSE << 4)` (R30, R171). -/
def statusWord (st : Status) : Word :=
  flagWord st.err ||| (flagWord st.schedValid <<< 1) ||| (flagWord st.fatal <<< 2) |||
    (BitVec.ofNat 32 st.cause.code <<< 4)

/-- Success: ERR and CAUSE become 0 (R30, R70 step 6). -/
def statusSuccess (st : Status) : Status := { st with err := false, cause := .none }

/-- A failure: ERR becomes 1 and CAUSE the cause (R187). -/
def statusError (c : Cause) (st : Status) : Status := { st with err := true, cause := c }

/-- A fatal failure also sets FATAL (R186). -/
def statusFatal (c : Cause) (st : Status) : Status := { statusError c st with fatal := true }

/-- SCHED_VALID as an expansion leaves it (true) or as a write to KSEL or KEYj leaves it (false) (R31). -/
def statusSchedValid (b : Bool) (st : Status) : Status := { st with schedValid := b }

end Sys2Proof.Machine
end

