-- ==== Sys2Proof/Machine/Ops.lean ====
section
/-!
DEFINITION. The named operations over memory, registers and the register map, and the one shared operation for each
ending of a command: success, `raise Error`, `raise Fatal` (00_scope.md R12, R13).
-/

namespace Sys2Proof.Machine

/-! ### DMEM -/

/-- The byte at an address (R50). -/
def Memory.read : Memory → Nat → Byte
  | [], _ => Config.unlistedByte
  | (b, u) :: m, a => if a = b then u else Memory.read m a

/-- DMEM without the entries of an address: that address reads as unlisted. -/
def Memory.erase (m : Memory) (a : Nat) : Memory := m.filter fun c => c.1 != a

/-- DMEM with an entry put before the first one of a higher address. -/
def Memory.insert : Memory → Nat → Byte → Memory
  | [], a, v => [(a, v)]
  | c :: m, a, v => if a < c.1 then (a, v) :: c :: m else c :: Memory.insert m a v

/-- A write of one byte (R50). It keeps the canonical form: writing what an unlisted byte reads as removes the entry. -/
def Memory.write (m : Memory) (a : Nat) (v : Byte) : Memory :=
  if v = Config.unlistedByte then m.erase a else (m.erase a).insert a v

/-- A write of a sequence of bytes, lowest address first. -/
def Memory.writeBytes : Memory → Nat → List Byte → Memory
  | m, _, [] => m
  | m, a, v :: vs => Memory.writeBytes (m.write a v) (a + 1) vs

/-- `MemRead(addr, 16)`: byte `j` of the block is `DMEM[addr + j]` (R12, R51). -/
def Memory.readBlock (m : Memory) (a : Nat) : Block := Vector.ofFn fun j => m.read (a + j.val)

/-- `MemWrite(addr, 16, v)` (R12). -/
def Memory.writeBlock (m : Memory) (a : Nat) (v : Block) : Memory := m.writeBytes a v.toList

/-! ### Registers the commands write -/

/-- `RES <- v` (R24). -/
def State.setRes (s : State) (v : Byte) : State := { s with res := v }

/-- `S[0..15] <- v` (R21). -/
def State.setBlock (s : State) (v : Block) : State := { s with block := v }

/-- A new content of DMEM. -/
def State.setDmem (s : State) (m : Memory) : State := { s with dmem := m }

/-- A new STATUS. -/
def State.setStatus (s : State) (st : Status) : State := { s with status := st }

/-- The words of W after an expansion: the first ones are those of the schedule, "any words above keep what they held
before" (R25, R134). -/
def mergeSchedule (words : List Word) (old : Vector Word 60) : Vector Word 60 :=
  Vector.ofFn fun i => words.getD i.val old[i]

/-- W holds a new schedule and SCHED_VALID becomes 1 (R31, R134). -/
def State.loadSchedule (s : State) (words : List Word) : State :=
  { s with
    sched := mergeSchedule words s.sched
    status := statusSchedValid true s.status }

/-! ### Ends of a command (R13, R70, R187, R186) -/

/-- The end of a successful command: ERR and CAUSE become 0. -/
def State.succeed (s : State) : State := s.setStatus (statusSuccess s.status)

/-- `raise Error(cause)`: nothing changes but ERR and CAUSE. There is no handler, no saved pc and no return
(R187, R188): the next command overwrites them. -/
def State.raiseError (s : State) (c : Cause) : State := s.setStatus (statusError c s.status)

/-- `raise Fatal(cause)`: as `raise Error`, and FATAL becomes 1. -/
def State.raiseFatal (s : State) (c : Cause) : State := s.setStatus (statusFatal c s.status)

/-! ### The register map (R35) -/

/-- The register at an offset; none where the map has none. -/
def regAt (off : Nat) : Option Reg :=
  if off % 4 ≠ 0 then none
  else if off = 0x000 then some .cmd
  else if off = 0x004 then some .status
  else if off = 0x008 then some .ksel
  else if off = 0x00C then some .res
  else if off = 0x010 then some .dptr
  else if off = 0x014 then some .dlen
  else if 0x020 ≤ off ∧ off < 0x040 then some (.key (Fin.ofNat 8 ((off - 0x020) / 4)))
  else if 0x040 ≤ off ∧ off < 0x050 then some (.blk (Fin.ofNat 4 ((off - 0x040) / 4)))
  else if 0x050 ≤ off ∧ off < 0x060 then some (.iv (Fin.ofNat 4 ((off - 0x050) / 4)))
  else if 0x100 ≤ off ∧ off < 0x1F0 then some (.rk (Fin.ofNat 60 ((off - 0x100) / 4)))
  else none

/-- The offset of a register. -/
def Reg.offset : Reg → Nat
  | .cmd => 0x000
  | .status => 0x004
  | .ksel => 0x008
  | .res => 0x00C
  | .dptr => 0x010
  | .dlen => 0x014
  | .key j => 0x020 + 4 * j.val
  | .blk c => 0x040 + 4 * c.val
  | .iv c => 0x050 + 4 * c.val
  | .rk i => 0x100 + 4 * i.val

/-- The word a read of a register returns (R171). -/
def State.readReg (s : State) : Reg → Word
  | .cmd => 0
  | .status => statusWord s.status
  | .ksel => s.ksel
  | .res => s.res.setWidth 32
  | .dptr => s.dptr
  | .dlen => s.dlen
  | .key j => wordAt s.key j.val
  | .blk c => wordAt s.block c.val
  | .iv c => wordAt s.iv c.val
  | .rk i => s.sched[i]

/-- SCHED_VALID cleared: what a write to KSEL or KEYj does beside storing its value (R31). -/
def State.dropSchedule (s : State) : State := s.setStatus (statusSchedValid false s.status)

/-- A write of a register that stores its value or is ignored (R171). A write to CMD is no such write: it stores
nothing here and runs a command (R172, `hostRegWrite`). -/
def State.storeReg (s : State) (r : Reg) (v : Word) : State :=
  match r with
  | .cmd => s
  | .status => s
  | .res => s
  | .rk _ => s
  | .ksel => State.dropSchedule { s with ksel := v }
  | .dptr => { s with dptr := v }
  | .dlen => { s with dlen := v }
  | .key j => State.dropSchedule { s with key := setWordAt s.key j.val v }
  | .blk c => { s with block := setWordAt s.block c.val v }
  | .iv c => { s with iv := setWordAt s.iv c.val v }

end Sys2Proof.Machine
end

