-- ==== Sys2Proof/Machine/Field.lean ====
section
/-!
DEFINITION. The field arithmetic unit (40_field_arithmetic.md): the GF(2^8) multiplier and inverter, and the commands
GFMUL and GFINV.
-/

namespace Sys2Proof.Machine

/-- Doubling: the product of `a` and x (R91). -/
def xtime (a : Byte) : Byte := if a.msb then (a <<< 1) ^^^ 0x1B else a <<< 1

/-- `n` iterations of the loop of R92 on its variables `a`, `b` and `acc`. -/
def multiplyLoop : Nat → Byte → Byte → Byte → Byte
  | 0, _, _, acc => acc
  | n + 1, a, b, acc =>
    multiplyLoop n (xtime a) (b >>> 1) (if b.getLsbD 0 then acc ^^^ a else acc)

/-- `multiply(a, b)`: the product in GF(2^8), by eight doublings (R92). -/
def multiply (a b : Byte) : Byte := multiplyLoop 8 a b 0

/-- `inverse(a)` as R93 words it: 0 for 0, else the byte `x` in 1..255 with `multiply(a, x) == 1`, tried in rising
order. The model computes `inverse` from the table below; that the two agree is a statement of this package. -/
def inverseSearch (a : Byte) : Byte :=
  if a = 0 then 0
  else
    (((List.range 255).map fun k => BitVec.ofNat 8 (k + 1)).find? fun x => multiply a x == 1).getD 0

/-- The table of `inverse` (95_test_vectors.md T3): row `r` holds the inverses of 16r .. 16r+15, two hex digits each,
the first one leftmost. R93 and U9 leave the method free and name the table as one of them (log entry 8). -/
def inverseTable : List Nat :=
  [ 0x00018df6cb527bd1e84f29c0b0e1e5c7,
    0x74b4aa4b992b605f583ffdccff40eeb2,
    0x3a6e5af1554da8c9c10a98153044a2c2,
    0x2c45926cf3396642f235206f77bb5919,
    0x1dfe37672d31f569a764ab135425e909,
    0xed5c05ca4c2487bf183e22f051ec6117,
    0x165eafd349a63643f44791df3393213b,
    0x79b7978510b5ba3cb670d006a1fa8182,
    0x837e7f809673be569b9e95d9f702b9a4,
    0xde6a326dd88a84722a149f88f9dc899a,
    0xfb7c2ec38fb8654826c8124acee7d262,
    0x0ce01fef11757871a58e763dbdbc8657,
    0x0b282fa3dad4e40fa92753041bfcace6,
    0x7a07ae63c5dbe2ea948bc4d59df8906b,
    0xb10dd6ebc60ecfad084ed7e35d501eb3,
    0x5b2338346846038cdd9c7da0cd1a411c ]

/-- `inverse(a)`: the multiplicative inverse, 0 for 0 (R93). -/
def inverse (a : Byte) : Byte :=
  BitVec.ofNat 8 (inverseTable.getD (a.toNat / 16) 0 >>> (8 * (15 - a.toNat % 16)))

/-- GFMUL a, b (R94). -/
def execGfmul (a b : Byte) (s : State) : Result := .next (s.setRes (multiply a b)).succeed

/-- GFINV a (R95). -/
def execGfinv (a : Byte) (s : State) : Result := .next (s.setRes (inverse a)).succeed

end Sys2Proof.Machine
end

