-- ==== Sys2Proof/Machine/Sbox.lean ====
section
/-!
DEFINITION. The S-box generator (41_sbox.md) and the commands SBOX and ISBOX.
-/

namespace Sys2Proof.Machine

/-- `forward_sbox(x)` (R100). -/
def forwardSbox (x : Byte) : Byte :=
  let v := inverse x
  v ^^^ rotl8 v 1 ^^^ rotl8 v 2 ^^^ rotl8 v 3 ^^^ rotl8 v 4 ^^^ 0x63

/-- `inverse_sbox(y)` (R101). -/
def inverseSbox (y : Byte) : Byte := inverse (rotl8 y 1 ^^^ rotl8 y 3 ^^^ rotl8 y 6 ^^^ 0x05)

/-- SBOX a (R102). -/
def execSbox (a : Byte) (s : State) : Result := .next (s.setRes (forwardSbox a)).succeed

/-- ISBOX a (R103). -/
def execIsbox (a : Byte) (s : State) : Result := .next (s.setRes (inverseSbox a)).succeed

end Sys2Proof.Machine
end

