-- ==== Sys2Proof/Machine/RoundTransforms.lean ====
section
/-!
DEFINITION. The round-transform unit (42_round_transforms.md): the seven functions on a block and the seven commands
that apply them to S.
-/

namespace Sys2Proof.Machine

/-- `sub_bytes(s)` (R111). -/
def subBytes (s : Block) : Block := s.map forwardSbox

/-- `inv_sub_bytes(s)` (R111). -/
def invSubBytes (s : Block) : Block := s.map inverseSbox

/-- `shift_rows(s)` (R114); column arithmetic is modulo 4. -/
def shiftRows (s : Block) : Block := ofCells fun C R => cell s (C + R) R

/-- `inv_shift_rows(s)` (R114); column arithmetic is modulo 4. -/
def invShiftRows (s : Block) : Block := ofCells fun C R => cell s (C - R) R

/-- `mix_columns(s)` (R117); row arithmetic is modulo 4. -/
def mixColumns (s : Block) : Block := ofCells fun C r =>
  multiply 0x02 (cell s C r) ^^^ multiply 0x03 (cell s C (r + 1)) ^^^ cell s C (r + 2) ^^^ cell s C (r + 3)

/-- `inv_mix_columns(s)` (R117); row arithmetic is modulo 4. -/
def invMixColumns (s : Block) : Block := ofCells fun C r =>
  multiply 0x0e (cell s C r) ^^^ multiply 0x0b (cell s C (r + 1)) ^^^ multiply 0x0d (cell s C (r + 2)) ^^^
    multiply 0x09 (cell s C (r + 3))

/-- `add_round_key(s, w, n)` (R120), in bytes. Round keys above 14 do not exist and no command asks for one (log
entry 10). -/
def addRoundKey (s : Block) (w : Vector Word 60) (n : Nat) : Block := ofCells fun C R =>
  cell s C R ^^^ byteOf (w.getD (4 * n + C.val) 0) R.val

/-- A command that replaces S by a function of S and succeeds. -/
def State.transform (s : State) (f : Block → Block) : State := (s.setBlock (f s.block)).succeed

/-- SUBBYTES (R112). -/
def execSubbytes (s : State) : Result := .next (s.transform subBytes)

/-- INVSUBBYTES (R113). -/
def execInvsubbytes (s : State) : Result := .next (s.transform invSubBytes)

/-- SHIFTROWS (R115). -/
def execShiftrows (s : State) : Result := .next (s.transform shiftRows)

/-- INVSHIFTROWS (R116). -/
def execInvshiftrows (s : State) : Result := .next (s.transform invShiftRows)

/-- MIXCOLUMNS (R118). -/
def execMixcolumns (s : State) : Result := .next (s.transform mixColumns)

/-- INVMIXCOLUMNS (R119). -/
def execInvmixcolumns (s : State) : Result := .next (s.transform invMixColumns)

/-- ADDROUNDKEY n (R122): NO_SCHEDULE first, then the fatal ROUND_RANGE, then the transform. -/
def execAddroundkey (n : Nat) (s : State) : Result :=
  if s.status.schedValid = false then .next (s.raiseError .noSchedule)
  else if n > rounds s.ksel then .next (s.raiseFatal .roundRange)
  else .next (s.transform fun b => addRoundKey b s.sched n)

end Sys2Proof.Machine
end

