-- ==== Sys2Proof/Machine/KeySchedule.lean ====
section
/-!
DEFINITION. The key-expansion engine (43_key_schedule.md): `expand_key` with its helpers, and the command EXPANDKEY.
-/

namespace Sys2Proof.Machine

/-- `rot_word((t0, t1, t2, t3)) = (t1, t2, t3, t0)` on bytes in index order (R132; 90_conflicts.md C1). -/
def rotWord (t : Word) : Word := pack (byteOf t 1) (byteOf t 2) (byteOf t 3) (byteOf t 0)

/-- `sub_word`: `forward_sbox` on each byte (R132). -/
def subWord (t : Word) : Word :=
  pack (forwardSbox (byteOf t 0)) (forwardSbox (byteOf t 1)) (forwardSbox (byteOf t 2)) (forwardSbox (byteOf t 3))

/-- `add_rcon((t0, t1, t2, t3), c) = (t0 ^ c, t1, t2, t3)` (R132; 90_conflicts.md C1). -/
def addRcon (t : Word) (c : Byte) : Word := pack (byteOf t 0 ^^^ c) (byteOf t 1) (byteOf t 2) (byteOf t 3)

/-- `Rcon(j)` for `j` in 1..10 (R133). No other index is used (U6; log entry 10). -/
def rcon : Nat → Byte
  | 1 => 0x01
  | 2 => 0x02
  | 3 => 0x04
  | 4 => 0x08
  | 5 => 0x10
  | 6 => 0x20
  | 7 => 0x40
  | 8 => 0x80
  | 9 => 0x1B
  | 10 => 0x36
  | _ => 0

/-- `temp` of R135 for word `i`, from `w[i-1]`. -/
def scheduleTemp (nk i : Nat) (prev : Word) : Word :=
  if i % nk = 0 then addRcon (subWord (rotWord prev)) (rcon (i / nk))
  else if nk > 6 ∧ i % nk = 4 then subWord prev
  else prev

/-- `w[i]` of R135 for `i >= Nk`, from the words before it. -/
def scheduleWord (nk : Nat) (w : List Word) (i : Nat) : Word :=
  w.getD (i - nk) 0 ^^^ scheduleTemp nk i (w.getD (i - 1) 0)

/-- The first `Nk + extra` words of the schedule: the packed key (R131), then one word after the other (R135). -/
def expandWords (key : Vector Byte 32) (nk : Nat) : Nat → List Word
  | 0 => (List.range nk).map (wordAt key)
  | extra + 1 => expandWords key nk extra ++ [scheduleWord nk (expandWords key nk extra) (nk + extra)]

/-- `expand_key(key, Nk, total_words)` (R135). -/
def expandKey (key : Vector Byte 32) (nk total : Nat) : List Word := expandWords key nk (total - nk)

/-- The expansion of the present K under the present KSEL, as EXPANDKEY and the mode commands run it (R134, R151). -/
def State.expandSchedule (s : State) : State :=
  s.loadSchedule (expandKey s.key (keyWords s.ksel) (schedWords s.ksel))

/-- EXPANDKEY (R134). -/
def execExpandkey (s : State) : Result := .next s.expandSchedule.succeed

end Sys2Proof.Machine
end

