-- ==== Sys2Proof/Machine/CipherDriver.lean ====
section
/-!
DEFINITION. The cipher driver (44_cipher_driver.md): the forward and inverse cipher over one block, and the commands
ENCBLK and DECBLK.
-/

namespace Sys2Proof.Machine

/-- Rounds 1 .. n of the forward cipher, in increasing order (R140). -/
def forwardRounds (w : Vector Word 60) : Nat → Block → Block
  | 0, s => s
  | n + 1, s => addRoundKey (mixColumns (shiftRows (subBytes (forwardRounds w n s)))) w (n + 1)

/-- `forward_cipher(s, w, Nr)` (R140). -/
def forwardCipher (s : Block) (w : Vector Word 60) (nr : Nat) : Block :=
  addRoundKey (shiftRows (subBytes (forwardRounds w (nr - 1) (addRoundKey s w 0)))) w nr

/-- Rounds n down to 1 of the inverse cipher, in decreasing order (R141). -/
def inverseRounds (w : Vector Word 60) : Nat → Block → Block
  | 0, s => s
  | n + 1, s => inverseRounds w n (invMixColumns (addRoundKey (invSubBytes (invShiftRows s)) w (n + 1)))

/-- `inverse_cipher(s, w, Nr)` (R141). -/
def inverseCipher (s : Block) (w : Vector Word 60) (nr : Nat) : Block :=
  addRoundKey (invSubBytes (invShiftRows (inverseRounds w (nr - 1) (addRoundKey s w nr)))) w 0

/-- ENCBLK (R142). -/
def execEncblk (s : State) : Result :=
  if s.status.schedValid = false then .next (s.raiseError .noSchedule)
  else .next (s.transform fun b => forwardCipher b s.sched (rounds s.ksel))

/-- DECBLK (R143). -/
def execDecblk (s : State) : Result :=
  if s.status.schedValid = false then .next (s.raiseError .noSchedule)
  else .next (s.transform fun b => inverseCipher b s.sched (rounds s.ksel))

end Sys2Proof.Machine
end

