-- ==== Sys2Proof/Machine/ModeLayer.lean ====
section
/-!
DEFINITION. The mode layer (45_mode_layer.md): ECB and CBC over the buffer in DMEM, and the commands ECBENC, ECBDEC,
CBCENC and CBCDEC.
-/

namespace Sys2Proof.Machine

/-- `mode_checks`, in their order: the cause of the first failed check (R150). The sum is on natural numbers. -/
def modeCheck (s : State) : Option Cause :=
  if s.dlen.toNat = 0 then some .lenZero
  else if s.dlen.toNat % 16 ≠ 0 then some .lenUnaligned
  else if s.dptr.toNat + s.dlen.toNat > s.cfg.dmemBytes then some .range
  else none

/-- What a mode does with one block: from the chaining value CH and the block read, the block to write and the next
chaining value. ECB ignores CH. -/
abbrev BlockStep := Block → Block → Block × Block

/-- The effective address of block `i` of the buffer: `DPTR + 16*i` (20_memory.md R56). -/
def blockAddr (base i : Nat) : Nat := base + 16 * i

/-- Blocks 0 .. n-1 of the buffer at `base`, in increasing order, each read, transformed and written back in place
(R57, R160); the pair is DMEM and CH. -/
def modeLoop (f : BlockStep) (base : Nat) : Nat → Memory × Block → Memory × Block
  | 0, p => p
  | n + 1, p =>
    let q := modeLoop f base n p
    let r := f q.2 (q.1.readBlock (blockAddr base n))
    (q.1.writeBlock (blockAddr base n) r.1, r.2)

/-- What the four commands share: the checks (R150), the expansion (R151), CH from V (R156), the blocks, success. They
leave S, V and every other register as they were (R152). -/
def runMode (f : Vector Word 60 → Nat → BlockStep) (s : State) : Result :=
  match modeCheck s with
  | some c => .next (s.raiseError c)
  | none =>
    let e := s.expandSchedule
    .next (e.setDmem
      (modeLoop (f e.sched (rounds s.ksel)) s.dptr.toNat (s.dlen.toNat / 16) (s.dmem, s.iv)).1).succeed

/-- One block of ECBENC (R153). -/
def ecbEncStep (w : Vector Word 60) (nr : Nat) : BlockStep := fun ch t => (forwardCipher t w nr, ch)

/-- One block of ECBDEC (R154). -/
def ecbDecStep (w : Vector Word 60) (nr : Nat) : BlockStep := fun ch t => (inverseCipher t w nr, ch)

/-- One block of CBCENC (R157): the ciphertext is the next chaining value. -/
def cbcEncStep (w : Vector Word 60) (nr : Nat) : BlockStep := fun ch t =>
  (forwardCipher (xorBlock t ch) w nr, forwardCipher (xorBlock t ch) w nr)

/-- One block of CBCDEC (R158): inverse cipher first, then XOR; the next chaining value is the ciphertext as it was
before the write. -/
def cbcDecStep (w : Vector Word 60) (nr : Nat) : BlockStep := fun ch x => (xorBlock (inverseCipher x w nr) ch, x)

/-- ECBENC (R153). -/
def execEcbenc (s : State) : Result := runMode ecbEncStep s

/-- ECBDEC (R154). -/
def execEcbdec (s : State) : Result := runMode ecbDecStep s

/-- CBCENC (R157). -/
def execCbcenc (s : State) : Result := runMode cbcEncStep s

/-- CBCDEC (R158). -/
def execCbcdec (s : State) : Result := runMode cbcDecStep s

end Sys2Proof.Machine
end

