-- ==== Sys2Proof/Machine/System.lean ====
section
/-!
DEFINITION. The system command (46_system.md): NOP.
-/

namespace Sys2Proof.Machine

/-- NOP (R170): it succeeds, and so clears ERR and CAUSE. -/
def execNop (s : State) : Result := .next s.succeed

end Sys2Proof.Machine
end

