-- ==== Sys2Proof/Machine/HostOps.lean ====
section
/-!
DEFINITION. The host's five operations (46_system.md R171): a write to CMD runs a command (R172, 30_encoding.md R70),
the other register accesses, the DMEM accesses, and Reset (70_reset_and_hazards.md R210).
-/

namespace Sys2Proof.Machine

/-- What a write of the word `cmd` to CMD does (R70): ignored when FATAL is 1, `Error(ILLEGAL_CMD)` when no row of the
table matches (R74), else the command. -/
def runCommand (cmd : Word) (s : State) : Result :=
  if s.status.fatal then .next s
  else match decode cmd with
    | .error _ => .next (s.raiseError .illegalCmd)
    | .ok i => exec i s

/-- The host receives the value of a read. No read changes any other state (R171). -/
def State.reply (s : State) (r : Reply) : State := { s with replies := s.replies ++ [r] }

/-- `RegRead(off)` (R171); an offset outside the map is refused (U3). -/
def hostRegRead (off : Nat) (s : State) : Result :=
  match regAt off with
  | none => .refused (.reservedOffset off)
  | some r => .next (s.reply (.word (s.readReg r)))

/-- `RegWrite(off, v)` (R171); an offset outside the map is refused (U3). -/
def hostRegWrite (off : Nat) (v : Word) (s : State) : Result :=
  match regAt off with
  | none => .refused (.reservedOffset off)
  | some .cmd => runCommand v s
  | some r => .next (s.storeReg r v)

/-- `DmemRead(addr)` (R171); at or above `DMEM_BYTES` there is no byte, and it is refused (U4). -/
def hostDmemRead (addr : Nat) (s : State) : Result :=
  if addr < s.cfg.dmemBytes then .next (s.reply (.byte (s.dmem.read addr)))
  else .refused (.dmemOutOfRange addr)

/-- `DmemWrite(addr, v)` (R171); at or above `DMEM_BYTES` there is no byte, and it is refused (U4). -/
def hostDmemWrite (addr : Nat) (v : Byte) (s : State) : Result :=
  if addr < s.cfg.dmemBytes then .next (s.setDmem (s.dmem.write addr v))
  else .refused (.dmemOutOfRange addr)

/-- `Reset` (R210): STATUS, KSEL, DPTR, DLEN and RES become 0; S, K, V and W become free values (R36, U1; log entry
4); DMEM keeps its contents. The host's pending operations and received values are no part of the core. -/
def State.resetCore (s : State) : State :=
  { s with
    block := Vector.ofFn fun i => Config.freeBlockByte s.resets i.val
    key := Vector.ofFn fun i => Config.freeKeyByte s.resets i.val
    iv := Vector.ofFn fun i => Config.freeIvByte s.resets i.val
    res := 0
    sched := Vector.ofFn fun i => Config.freeSchedWord s.resets i.val
    ksel := 0
    dptr := 0
    dlen := 0
    status := Status.reset
    resets := s.resets + 1 }

/-- One host operation, to its end (R171). -/
def hostOp (op : HostOp) (s : State) : Result :=
  match op with
  | .regRead off => hostRegRead off s
  | .regWrite off v => hostRegWrite off v s
  | .dmemRead addr => hostDmemRead addr s
  | .dmemWrite addr v => hostDmemWrite addr v s
  | .reset => .next s.resetCore

end Sys2Proof.Machine
end

