-- ==== Sys2Proof/Machine/Step.lean ====
section
/-!
DEFINITION. One step: the host's oldest pending operation, to its end (20_memory.md R58, 46_system.md R171). With none
pending the core is idle and holds its state (60_exceptions.md R196).
-/

namespace Sys2Proof.Machine

/-- One step of the machine. -/
def step (s : State) : Host.Outcome State Fault Refusal :=
  match s.host with
  | [] => .next s
  | op :: rest => hostOp op { s with host := rest }

/-- `s` with a write of the table row's word to CMD as the host's next operation: there is no fetch, a command is the
value of one CMD write (10_state.md R32, 20_memory.md R61; log entry 5). -/
def State.withFetchWord (s : State) (nbits w : Nat) : State :=
  { s with host := .regWrite 0x000 (tableWord nbits w) :: s.host }

end Sys2Proof.Machine
end

