-- ==== Sys2Proof/Safety.lean ====
section
/-!
DEFINITION. What counts as a safe state and a safe run, and the other terms the statements use: which command writes
what, a buffer that passes the checks, sequences of commands, and the product of polynomials.
-/

namespace Sys2Proof.Machine

/-! ### Safe states -/

/-- A state with FATAL = 1: "never a good final state, and never cleared by a step other than reset" (60_exceptions.md
R186, U17; 46_system.md R175; log entry 9). -/
abbrev State.faulted (s : State) : Prop := s.status.fatal = true

/-- ERR is 0 exactly when CAUSE is 0, and FATAL is 1 exactly when CAUSE is that of the one fatal cause
(10_state.md R30, 60_exceptions.md R180, R186). -/
abbrev State.statusConsistent (s : State) : Prop :=
  (s.status.err = false ↔ s.status.cause = .none) ∧ (s.status.fatal = true ↔ s.status.cause = .roundRange)

/-- While SCHED_VALID is 1, W holds the expansion of the present K under the present KSEL (10_state.md R38). -/
abbrev State.scheduleCurrent (s : State) : Prop :=
  s.status.schedValid = true → ∀ i : Fin 60, i.val < schedWords s.ksel →
    s.sched[i] = (expandKey s.key (keyWords s.ksel) (schedWords s.ksel)).getD i.val 0

/-- DMEM is in its canonical form and lists existing addresses only (20_memory.md R50). -/
abbrev State.memoryOk (s : State) : Prop := s.dmem.wf ∧ ∀ c ∈ s.dmem, c.1 < s.cfg.dmemBytes

/-- The invariant of the whole machine; `DMEM_BYTES` is one of the values the spec allows (R50). -/
abbrev State.inv (s : State) : Prop :=
  s.statusConsistent ∧ s.scheduleCurrent ∧ s.memoryOk ∧ s.cfg.wf

/-! ### Which command writes what (R20 to R31) -/

/-- The four byte-level commands, which write RES (R24). -/
def writesRes : Instr → Bool
  | .gfmul _ _ | .gfinv _ | .sbox _ | .isbox _ => true
  | .nop | .subbytes | .invsubbytes | .shiftrows | .invshiftrows | .mixcolumns | .invmixcolumns | .addroundkey _
  | .expandkey | .encblk | .decblk | .ecbenc | .ecbdec | .cbcenc | .cbcdec => false

/-- The nine commands that write S (R21). -/
def writesBlock : Instr → Bool
  | .subbytes | .invsubbytes | .shiftrows | .invshiftrows | .mixcolumns | .invmixcolumns | .addroundkey _ | .encblk
  | .decblk => true
  | .nop | .gfmul _ _ | .gfinv _ | .sbox _ | .isbox _ | .expandkey | .ecbenc | .ecbdec | .cbcenc | .cbcdec => false

/-- The four mode commands, which write DMEM (R33). -/
def isMode : Instr → Bool
  | .ecbenc | .ecbdec | .cbcenc | .cbcdec => true
  | .nop | .gfmul _ _ | .gfinv _ | .sbox _ | .isbox _ | .subbytes | .invsubbytes | .shiftrows | .invshiftrows
  | .mixcolumns | .invmixcolumns | .addroundkey _ | .expandkey | .encblk | .decblk => false

/-- The five commands that run the key expansion and so write W and SCHED_VALID (R25, R31). -/
def expands (i : Instr) : Bool := i == .expandkey || isMode i

/-! ### The buffer of the mode commands (R28, R150) -/

/-- The buffer passes the three checks. -/
abbrev State.bufferOk (s : State) : Prop :=
  s.dlen.toNat ≠ 0 ∧ s.dlen.toNat % 16 = 0 ∧ s.dptr.toNat + s.dlen.toNat ≤ s.cfg.dmemBytes

/-- Block `i` of the buffer, as DMEM holds it (20_memory.md R56). -/
abbrev State.bufferBlock (s : State) (i : Nat) : Block := s.dmem.readBlock (blockAddr s.dptr.toNat i)

/-- An address outside every block of the buffer. -/
abbrev State.outsideBuffer (s : State) (a : Nat) : Prop :=
  ∀ i, i < s.dlen.toNat / 16 → a < blockAddr s.dptr.toNat i ∨ blockAddr s.dptr.toNat i + 16 ≤ a

/-- `t` is `s` after a successful mode command, DMEM apart: W and SCHED_VALID as EXPANDKEY leaves them, success, and
every other register as before (R151, R152). -/
abbrev State.afterMode (s t : State) : Prop :=
  t = { s with sched := t.sched, dmem := t.dmem,
               status := { s.status with err := false, cause := .none, schedValid := true } } ∧
  ∀ i : Fin 60, t.sched[i] =
    if i.val < schedWords s.ksel then (expandKey s.key (keyWords s.ksel) (schedWords s.ksel)).getD i.val 0
    else s.sched[i]

/-! ### Sequences of commands (30_encoding.md R77) -/

/-- The commands of a list, one after the other. -/
def runCommands : List Instr → State → Result
  | [], s => .next s
  | i :: is, s =>
    match exec i s with
    | .next t => runCommands is t
    | .fault f => .fault f
    | .refused r => .refused r

/-- `ROUND n`. -/
def pseudoRound (n : Nat) : List Instr := [.subbytes, .shiftrows, .mixcolumns, .addroundkey n]

/-- `FINALROUND n`. -/
def pseudoFinalRound (n : Nat) : List Instr := [.subbytes, .shiftrows, .addroundkey n]

/-- `INVROUND n`. -/
def pseudoInvRound (n : Nat) : List Instr := [.invshiftrows, .invsubbytes, .addroundkey n, .invmixcolumns]

/-- `INVFINALROUND`. -/
def pseudoInvFinalRound : List Instr := [.invshiftrows, .invsubbytes, .addroundkey 0]

/-- `ADDROUNDKEY 0`, `ROUND 1` ... `ROUND nr-1`, `FINALROUND nr`. -/
def encblkSequence (nr : Nat) : List Instr :=
  [.addroundkey 0] ++ (List.range (nr - 1)).flatMap (fun k => pseudoRound (k + 1)) ++ pseudoFinalRound nr

/-- `ADDROUNDKEY nr`, `INVROUND nr-1` ... `INVROUND 1`, `INVFINALROUND`. -/
def decblkSequence (nr : Nat) : List Instr :=
  [.addroundkey nr] ++ (List.range (nr - 1)).flatMap (fun k => pseudoInvRound (nr - 1 - k)) ++ pseudoInvFinalRound

/-! ### The field -/

/-- The product of two polynomials over GF(2), bit `i` the coefficient of x^i, not reduced; `b` has at most 8
coefficients (R8, R90). -/
def polyMul (a b : Nat) : Nat :=
  (List.range 8).foldl (fun acc k => if b.testBit k then acc ^^^ (a <<< k) else acc) 0

/-- The block whose 16 bytes, first byte first, are the hex digits of `n` (00_scope.md R8). -/
def blockOfHex (n : Nat) : Block := Vector.ofFn fun i => BitVec.ofNat 8 (n >>> (8 * (15 - i.val)))

/-- The example block `B` of 42_round_transforms.md: `B[i] = 0x11 * i`. -/
def exampleBlock : Block := blockOfHex 0x00112233445566778899aabbccddeeff

/-- `K16`, `K24`, `K32` of 95_test_vectors.md by their first 16, 24, 32 bytes: the bytes that count up from 0x00. -/
def countingKey : Vector Byte 32 := Vector.ofFn fun i => BitVec.ofNat 8 i.val

end Sys2Proof.Machine
end

