-- ==== Sys2Proof/Certificates/Slice0/Obligations.lean ====
section
/-!
DEFINITION. The statements about the model, each formalising what its docstring cites. None but
ResetMeetsInvariants rests on a value the model chose (log entries 1 to 5): where one could, it quantifies over every
state.
-/

open Sys2Proof Sys2Proof.Machine

/-! ### Encoding -/

/-- Decoding the word of a well-formed command gives the command back, for every operand (30_encoding.md R71 to R73). -/
def Obligations.DecodeEncodeRoundTrip : Prop :=
  ∀ i : Instr, i.wellFormed = true → decode (encode i) = .ok i

/-- A word that decodes is the word of its command: no bit of it is ignored (R71 to R74). -/
def Obligations.EncodeDecodeRoundTrip : Prop :=
  ∀ (w : Word) (i : Instr), decode w = .ok i → i.wellFormed = true ∧ encode i = w

/-- The decoder reads a word as a command exactly when the word matches that command's row of the table,
`cmd & mask == match` (R73), and no word matches two rows. -/
def Obligations.DecodeMatchesOpcodeTable : Prop :=
  (∀ (w : Word) (i : Instr), decode w = .ok i →
    ∃ r ∈ opcodeTable, r.mnemonic = i.mnemonic ∧ w &&& r.mask = r.bits) ∧
  (∀ (w : Word), ∀ r ∈ opcodeTable, w &&& r.mask = r.bits → ∃ i, decode w = .ok i ∧ i.mnemonic = r.mnemonic) ∧
  (∀ (w : Word), ∀ r ∈ opcodeTable, ∀ q ∈ opcodeTable, w &&& r.mask = r.bits → w &&& q.mask = q.bits → r = q)

/-- R74: which words are illegal, and what writing one to CMD does while FATAL is 0. -/
def Obligations.IllegalWordsExactly : Prop :=
  (∀ w : Word, (∃ e, decode w = .error e) ↔
    (w.extractLsb' 0 8 ∉ [0x00#8, 0x01#8, 0x02#8, 0x03#8, 0x04#8, 0x10#8, 0x11#8, 0x12#8, 0x13#8, 0x14#8, 0x15#8,
        0x16#8, 0x20#8, 0x30#8, 0x31#8, 0x40#8, 0x41#8, 0x42#8, 0x43#8]) ∨
    w.extractLsb' 24 8 ≠ 0 ∨
    (w.extractLsb' 16 8 ≠ 0 ∧ w.extractLsb' 0 8 ≠ 0x01#8) ∨
    (w.extractLsb' 8 8 ≠ 0 ∧ w.extractLsb' 0 8 ∉ [0x01#8, 0x02#8, 0x03#8, 0x04#8, 0x16#8])) ∧
  (∀ (w : Word) (s : State), (∃ e, decode w = .error e) → s.status.fatal = false →
    hostRegWrite 0x000 w s = .next { s with status := { s.status with err := true, cause := .illegalCmd } }) ∧
  (∀ w : Word, decode w = .ok .nop ↔ w = 0) ∧
  (∀ w ∈ [0x00000005#32, 0x01000000#32, 0x00000130#32, 0x00010002#32], ∃ e, decode w = .error e)

/-- Words written out from R73 and 95_test_vectors.md T19 decode to the commands they stand for. -/
def Obligations.SampleWordsDecode : Prop :=
  [0x00000000, 0x00835701, 0x00ffff01, 0x00005302, 0x0000ff03, 0x0000ff04, 0x00000010, 0x00000016, 0x00000e16,
    0x0000ff16, 0x00000020, 0x00000030, 0x00000043].map decode =
  [.ok .nop, .ok (.gfmul 0x57 0x83), .ok (.gfmul 0xff 0xff), .ok (.gfinv 0x53), .ok (.sbox 0xff), .ok (.isbox 0xff),
    .ok .subbytes, .ok (.addroundkey 0), .ok (.addroundkey 14), .ok (.addroundkey 255), .ok .expandkey, .ok .encblk,
    .ok .cbcdec]

/-! ### Dispatch and the step -/

/-- When the host's next operation writes to CMD a word that decodes, and FATAL is 0, the step is the meaning of the
decoded command on the state with that operation taken (R70, 46_system.md R172). -/
def Obligations.StepRunsDecodedCommand : Prop :=
  ∀ (s : State) (w : Word) (rest : List HostOp) (i : Instr),
    s.host = .regWrite 0x000 w :: rest → s.status.fatal = false → decode w = .ok i →
      step s = exec i { s with host := rest }

/-- Every other step is the host's operation; with none pending the core holds its state (10_state.md R32, 46_system.md
R171, 60_exceptions.md R196). -/
def Obligations.StepTakesOldestOperation : Prop :=
  (∀ s : State, s.host = [] → step s = .next s) ∧
  (∀ (s : State) (op : HostOp) (rest : List HostOp), s.host = op :: rest → step s = hostOp op { s with host := rest })

/-- R172: a write to CMD always completes; under FATAL it changes nothing; else either the command has made its state
changes and ERR is 0, or nothing changed but ERR, CAUSE and, for the fatal cause, FATAL. -/
def Obligations.CommandSucceedsOrChangesNothing : Prop :=
  ∀ (w : Word) (s : State),
    (s.status.fatal = true → hostRegWrite 0x000 w s = .next s) ∧
    (s.status.fatal = false → ∃ t, hostRegWrite 0x000 w s = .next t ∧
      ((∃ i, decode w = .ok i ∧ exec i s = .next t ∧
          t.status.err = false ∧ t.status.cause = .none ∧ t.status.fatal = false) ∨
        (∃ c, c ≠ Cause.none ∧
          t = { s with status := { s.status with err := true, cause := c, fatal := decide (c = .roundRange) } })))

/-- Every command ends, in a next state: no command faults, is refused or runs on (44_cipher_driver.md R145). -/
def Obligations.EveryCommandCompletes : Prop :=
  ∀ (i : Instr) (s : State), ∃ t, exec i s = .next t

/-- The only operations without a next state are register accesses outside the register map and DMEM accesses outside DMEM,
both refused, under the model's own names (93_implementation_defined.md U3, U4; log entries 6, 7). No step faults. -/
def Obligations.StepStopsOnlyOutsideTheMaps : Prop :=
  ∀ s : State,
    (∃ t, step s = .next t) ∨
    (∃ off rest, regAt off = none ∧ (s.host = .regRead off :: rest ∨ ∃ v, s.host = .regWrite off v :: rest) ∧
      step s = .refused (.reservedOffset off)) ∨
    (∃ addr rest, s.cfg.dmemBytes ≤ addr ∧
      (s.host = .dmemRead addr :: rest ∨ ∃ v, s.host = .dmemWrite addr v :: rest) ∧
      step s = .refused (.dmemOutOfRange addr))

/-! ### Invariants every step keeps -/

/-- R38: while SCHED_VALID is 1, W holds the expansion of the present K under the present KSEL. It holds right after
reset, and every step keeps it. -/
def Obligations.ScheduleCurrentKept : Prop :=
  State.reset.scheduleCurrent ∧
  ∀ s t : State, s.scheduleCurrent → step s = .next t → t.scheduleCurrent

/-- ERR is 0 exactly when CAUSE is 0, and FATAL is 1 exactly when CAUSE is ROUND_RANGE: every step keeps it (R30, R180,
R186). -/
def Obligations.StatusConsistentKept : Prop :=
  ∀ s t : State, s.statusConsistent → step s = .next t → t.statusConsistent

/-- DMEM lists no address at or above `DMEM_BYTES` (20_memory.md R50, R56) and stays in canonical form: every step keeps
both. The canonical form (rising addresses, no entry equal to what an unlisted address reads as) is the model's own (log
entry 3). -/
def Obligations.MemoryCanonicalKept : Prop :=
  ∀ s t : State, s.memoryOk → step s = .next t → t.memoryOk

/-- The canonical form is canonical: two DMEMs in it that hold the same bytes are the same data (log entry 3). -/
def Obligations.MemoryCanonicalUnique : Prop :=
  ∀ m n : Memory, m.wf → n.wf → (∀ a, m.read a = n.read a) → m = n

/-- The state right after reset meets every invariant of the model. Its DMEM is the model's choice (log entry 3: nothing
listed), and so is its `DMEM_BYTES` (log entry 1). -/
def Obligations.ResetMeetsInvariants : Prop :=
  State.reset.inv

/-- A step takes one pending host operation, never changes the configuration, and gives the host a value only for a
read (46_system.md R171, R175). -/
def Obligations.StepTakesOneOperation : Prop :=
  ∀ s t : State, step s = .next t →
    t.cfg = s.cfg ∧ t.host = s.host.tail ∧
    (t.replies = s.replies ∨
      ∃ r rest, t.replies = s.replies ++ [r] ∧
        ((∃ off, s.host = .regRead off :: rest) ∨ ∃ addr, s.host = .dmemRead addr :: rest))

/-- FATAL is sticky (R186): in a state with FATAL = 1 no operation but Reset clears it or changes ERR or CAUSE, and a
write to CMD changes nothing at all. Reset clears it. -/
def Obligations.FatalStaysUntilReset : Prop :=
  ∀ s : State, s.faulted →
    (∀ w, hostOp (.regWrite 0x000 w) s = .next s) ∧
    (∀ op t, op ≠ .reset → hostOp op s = .next t →
      t.status.fatal = true ∧ t.status.err = s.status.err ∧ t.status.cause = s.status.cause) ∧
    (∃ t, hostOp .reset s = .next t ∧ t.status.fatal = false)

/-! ### Frames -/

/-- What no command, or only some commands, change: K, V, KSEL, DPTR, DLEN never; RES, S, W with SCHED_VALID, and DMEM
only by the commands their rules list; FATAL only by ADDROUNDKEY (10_state.md R21 to R31). -/
def Obligations.CommandFrame : Prop :=
  ∀ (i : Instr) (s t : State), exec i s = .next t →
    (t.key = s.key ∧ t.iv = s.iv ∧ t.ksel = s.ksel ∧ t.dptr = s.dptr ∧ t.dlen = s.dlen) ∧
    (t.cfg = s.cfg ∧ t.host = s.host ∧ t.replies = s.replies ∧ t.resets = s.resets) ∧
    (writesRes i = false → t.res = s.res) ∧
    (writesBlock i = false → t.block = s.block) ∧
    (expands i = false → t.sched = s.sched ∧ t.status.schedValid = s.status.schedValid) ∧
    (isMode i = false → ∀ a, t.dmem.read a = s.dmem.read a) ∧
    ((∀ n, i ≠ .addroundkey n) → t.status.fatal = s.status.fatal)

/-- R152: a mode command leaves S, K, V, KSEL, DPTR, DLEN and RES alone, and writes nothing but bytes of the buffer, W,
SCHED_VALID, ERR and CAUSE. -/
def Obligations.ModeFrame : Prop :=
  ∀ (i : Instr) (s : State), isMode i = true → ∃ t, exec i s = .next t ∧
    t = { s with sched := t.sched, dmem := t.dmem,
                 status := { s.status with err := t.status.err, cause := t.status.cause,
                                           schedValid := t.status.schedValid } } ∧
    (∀ a, s.outsideBuffer a → t.dmem.read a = s.dmem.read a) ∧
    (∀ k : Fin 60, schedWords s.ksel ≤ k.val → t.sched[k] = s.sched[k])

/-! ### What each command does -/

/-- R170: NOP clears ERR and CAUSE and changes nothing else; its word; the word 0x00000100 is illegal; under FATAL it is
ignored; STATUS = 0x00000021 becomes 0x00000000. -/
def Obligations.NopResult : Prop :=
  (∀ s : State, exec .nop s = .next { s with status := { s.status with err := false, cause := .none } }) ∧
  decode 0x00000000 = .ok .nop ∧ (∃ e, decode 0x00000100 = .error e) ∧
  (∀ s : State, s.status.fatal = true → hostRegWrite 0x000 0x00000000 s = .next s) ∧
  (∀ s : State, statusWord s.status = 0x00000021 →
    ∃ t, hostRegWrite 0x000 0x00000000 s = .next t ∧ statusWord t.status = 0x00000000)

/-- R94 and R95: GFMUL and GFINV write their value to RES, ERR = CAUSE = 0 and nothing else, and RES keeps its value
until the next byte-level command; their words; a word with `z != 0`, or a GFINV word with `b != 0`, is illegal; under
FATAL they are ignored; the corner cases and the examples. -/
def Obligations.FieldCommandResults : Prop :=
  (∀ (a b : Byte) (s : State), exec (.gfmul a b) s =
    .next { s with res := multiply a b, status := { s.status with err := false, cause := .none } }) ∧
  (∀ (a : Byte) (s : State), exec (.gfinv a) s =
    .next { s with res := inverse a, status := { s.status with err := false, cause := .none } }) ∧
  (∀ a b : Byte, decode (0x00000001 ||| (a.setWidth 32 <<< 8) ||| (b.setWidth 32 <<< 16)) = .ok (.gfmul a b)) ∧
  (∀ a : Byte, decode (0x00000002 ||| (a.setWidth 32 <<< 8)) = .ok (.gfinv a)) ∧
  (∀ (i : Instr) (s t : State), writesRes i = false → exec i s = .next t → t.res = s.res) ∧
  (∀ w : Word, fieldZ w ≠ 0 → ∃ e, decode w = .error e) ∧
  (∀ w : Word, fieldOp w = 0x02 → fieldB w ≠ 0 → ∃ e, decode w = .error e) ∧
  (∀ (w : Word) (s : State), s.status.fatal = true → hostRegWrite 0x000 w s = .next s) ∧
  (∀ a : Byte, multiply a 0 = 0 ∧ multiply 0 a = 0 ∧ multiply a 1 = a ∧ multiply 1 a = a ∧ multiply a 2 = xtime a ∧
    multiply a 3 = xtime a ^^^ a) ∧
  multiply 0x57 0x83 = 0xC1 ∧ inverse 0x53 = 0xCA ∧ inverse 0x00 = 0x00

/-- R102 and R103: SBOX and ISBOX write their value to RES, ERR = CAUSE = 0 and nothing else; their words; the words
with `b != 0` are illegal; under FATAL they are ignored; the examples. -/
def Obligations.SboxCommandResults : Prop :=
  (∀ (a : Byte) (s : State), exec (.sbox a) s =
    .next { s with res := forwardSbox a, status := { s.status with err := false, cause := .none } }) ∧
  (∀ (a : Byte) (s : State), exec (.isbox a) s =
    .next { s with res := inverseSbox a, status := { s.status with err := false, cause := .none } }) ∧
  (∀ a : Byte, decode (0x00000003 ||| (a.setWidth 32 <<< 8)) = .ok (.sbox a)) ∧
  (∀ a : Byte, decode (0x00000004 ||| (a.setWidth 32 <<< 8)) = .ok (.isbox a)) ∧
  (∀ w : Word, fieldOp w = 0x03 ∨ fieldOp w = 0x04 → fieldB w ≠ 0 ∨ fieldZ w ≠ 0 → ∃ e, decode w = .error e) ∧
  (∀ (w : Word) (s : State), s.status.fatal = true → hostRegWrite 0x000 w s = .next s) ∧
  forwardSbox 0x00 = 0x63 ∧ forwardSbox 0x53 = 0xED ∧
  inverseSbox 0x63 = 0x00 ∧ inverseSbox 0x00 = 0x52 ∧ inverseSbox 0xED = 0x53

/-- R112 and R113: SUBBYTES and INVSUBBYTES apply the S-box, or its inverse, to each byte of S alone, ERR = CAUSE = 0,
and change nothing else; their words; under FATAL they are ignored; the corner cases and the examples. -/
def Obligations.SubBytesResults : Prop :=
  (∀ s : State, ∃ t, exec .subbytes s = .next t ∧
    t = { s with block := t.block, status := { s.status with err := false, cause := .none } } ∧
    ∀ i : Fin 16, t.block[i] = forwardSbox s.block[i]) ∧
  (∀ s : State, ∃ t, exec .invsubbytes s = .next t ∧
    t = { s with block := t.block, status := { s.status with err := false, cause := .none } } ∧
    ∀ i : Fin 16, t.block[i] = inverseSbox s.block[i]) ∧
  decode 0x00000010 = .ok .subbytes ∧ decode 0x00000011 = .ok .invsubbytes ∧
  (∀ (w : Word) (s : State), s.status.fatal = true → hostRegWrite 0x000 w s = .next s) ∧
  (∀ (s : State) (b u v : Block),
    (b, u, v) ∈ [(exampleBlock, blockOfHex 0x638293c31bfc33f5c4eeacea4bc12816, blockOfHex 0x52e3946686edd30297f962fe27c9997d),
      (Vector.replicate 16 0, Vector.replicate 16 0x63, Vector.replicate 16 0x52),
      (Vector.replicate 16 0x63, Vector.replicate 16 0xFB, Vector.replicate 16 0)] →
    s.block = b →
      ∃ t t', exec .subbytes s = .next t ∧ t.block = u ∧ exec .invsubbytes s = .next t' ∧ t'.block = v)

/-- R115 and R116: SHIFTROWS and INVSHIFTROWS move the bytes of S by the index tables R114 prints, ERR = CAUSE = 0, and
change nothing else; their words; row 0 and a block of equal bytes do not move; the examples. -/
def Obligations.ShiftRowsResults : Prop :=
  (∀ s : State, exec .shiftrows s = .next
    { s with
      block := #v[s.block[0], s.block[5], s.block[10], s.block[15], s.block[4], s.block[9], s.block[14], s.block[3],
        s.block[8], s.block[13], s.block[2], s.block[7], s.block[12], s.block[1], s.block[6], s.block[11]]
      status := { s.status with err := false, cause := .none } }) ∧
  (∀ s : State, exec .invshiftrows s = .next
    { s with
      block := #v[s.block[0], s.block[13], s.block[10], s.block[7], s.block[4], s.block[1], s.block[14], s.block[11],
        s.block[8], s.block[5], s.block[2], s.block[15], s.block[12], s.block[9], s.block[6], s.block[3]]
      status := { s.status with err := false, cause := .none } }) ∧
  decode 0x00000012 = .ok .shiftrows ∧ decode 0x00000013 = .ok .invshiftrows ∧
  (∀ (b : Block) (c : Fin 4), (shiftRows b)[4 * c.val] = b[4 * c.val] ∧ (invShiftRows b)[4 * c.val] = b[4 * c.val]) ∧
  (∀ v : Byte, shiftRows (Vector.replicate 16 v) = Vector.replicate 16 v) ∧
  shiftRows exampleBlock = blockOfHex 0x0055aaff4499ee3388dd2277cc1166bb ∧
  invShiftRows exampleBlock = blockOfHex 0x00ddaa774411eebb885522ffcc996633

/-- R118 and R119: MIXCOLUMNS and INVMIXCOLUMNS multiply each column of S by the matrices R117 writes out row by row,
ERR = CAUSE = 0, and change nothing else; their words; the corner cases and the examples. -/
def Obligations.MixColumnsResults : Prop :=
  (∀ s : State, ∃ t, exec .mixcolumns s = .next t ∧
    t = { s with block := t.block, status := { s.status with err := false, cause := .none } } ∧
    ∀ c : Fin 4, ∀ s0 s1 s2 s3 : Byte,
      s0 = s.block[4 * c.val] → s1 = s.block[4 * c.val + 1] → s2 = s.block[4 * c.val + 2] →
      s3 = s.block[4 * c.val + 3] →
        t.block[4 * c.val] = multiply 0x02 s0 ^^^ multiply 0x03 s1 ^^^ s2 ^^^ s3 ∧
        t.block[4 * c.val + 1] = s0 ^^^ multiply 0x02 s1 ^^^ multiply 0x03 s2 ^^^ s3 ∧
        t.block[4 * c.val + 2] = s0 ^^^ s1 ^^^ multiply 0x02 s2 ^^^ multiply 0x03 s3 ∧
        t.block[4 * c.val + 3] = multiply 0x03 s0 ^^^ s1 ^^^ s2 ^^^ multiply 0x02 s3) ∧
  (∀ s : State, ∃ t, exec .invmixcolumns s = .next t ∧
    t = { s with block := t.block, status := { s.status with err := false, cause := .none } } ∧
    ∀ c : Fin 4, ∀ s0 s1 s2 s3 : Byte,
      s0 = s.block[4 * c.val] → s1 = s.block[4 * c.val + 1] → s2 = s.block[4 * c.val + 2] →
      s3 = s.block[4 * c.val + 3] →
        t.block[4 * c.val] = multiply 0x0e s0 ^^^ multiply 0x0b s1 ^^^ multiply 0x0d s2 ^^^ multiply 0x09 s3 ∧
        t.block[4 * c.val + 1] = multiply 0x09 s0 ^^^ multiply 0x0e s1 ^^^ multiply 0x0b s2 ^^^ multiply 0x0d s3 ∧
        t.block[4 * c.val + 2] = multiply 0x0d s0 ^^^ multiply 0x09 s1 ^^^ multiply 0x0e s2 ^^^ multiply 0x0b s3 ∧
        t.block[4 * c.val + 3] = multiply 0x0b s0 ^^^ multiply 0x0d s1 ^^^ multiply 0x09 s2 ^^^ multiply 0x0e s3) ∧
  decode 0x00000014 = .ok .mixcolumns ∧ decode 0x00000015 = .ok .invmixcolumns ∧
  (∀ v : Byte, multiply 0x02 v ^^^ multiply 0x03 v ^^^ v ^^^ v = v ∧
    multiply 0x0e v ^^^ multiply 0x0b v ^^^ multiply 0x0d v ^^^ multiply 0x09 v = v) ∧
  (∀ b u : Block,
    (b, u) ∈ [(exampleBlock, blockOfHex 0x2277005566334411aaff88ddeebbcc99),
      (blockOfHex 0xdb135345f20a225cd4d4d4d52d26314c, blockOfHex 0x8e4da1bc9fdc589dd5d5d7d64d7ebdf8),
      (blockOfHex 0x0000000001010101c6c6c6c601000000, blockOfHex 0x0000000001010101c6c6c6c602010103)] →
    mixColumns b = u) ∧
  (∀ b u : Block,
    (b, u) ∈ [(exampleBlock, blockOfHex 0xaaff88ddeebbcc992277005566334411),
      (blockOfHex 0x8e4da1bc00000000010000007a7a7a7a, blockOfHex 0xdb135345000000000e090d0b7a7a7a7a)] →
    invMixColumns b = u)

/-- R122: ADDROUNDKEY n fails with NO_SCHEDULE without a valid schedule, whatever `n`; with one and `n > Nr(KSEL)` it is
fatal with ROUND_RANGE; else it XORs the 16 bytes of round key `n` onto S (R120) with ERR = CAUSE = 0. Nothing else
changes in each case. Its words; the corner cases and the examples. -/
def Obligations.AddRoundKeyResults : Prop :=
  (∀ (n : Nat) (s : State), s.status.schedValid = false → exec (.addroundkey n) s =
    .next { s with status := { s.status with err := true, cause := .noSchedule } }) ∧
  (∀ (n : Nat) (s : State), s.status.schedValid = true → rounds s.ksel < n → exec (.addroundkey n) s =
    .next { s with status := { s.status with err := true, cause := .roundRange, fatal := true } }) ∧
  (∀ (n : Nat) (s : State), s.status.schedValid = true → n ≤ rounds s.ksel →
    ∃ t, exec (.addroundkey n) s = .next t ∧
      t = { s with block := t.block, status := { s.status with err := false, cause := .none } } ∧
      (∀ (C R : Fin 4) (k : Word), s.sched[4 * n + C.val]? = some k →
        t.block[4 * C.val + R.val] = s.block[4 * C.val + R.val] ^^^ byteOf k R.val) ∧
      ∃ u, exec (.addroundkey n) t = .next u ∧ u.block = s.block) ∧
  (∀ n : Byte, decode (0x00000016 ||| (n.setWidth 32 <<< 8)) = .ok (.addroundkey n.toNat)) ∧
  (∀ w : Word, fieldOp w = 0x16 → fieldB w ≠ 0 → ∃ e, decode w = .error e) ∧
  (rounds 128 = 10 ∧ rounds 192 = 12 ∧ ∀ ksel, ksel ≠ 128 → ksel ≠ 192 → rounds ksel = 14) ∧
  (∀ s t : State, s.ksel = 128 → (∀ i : Fin 16, s.key[i.val] = BitVec.ofNat 8 i.val) → s.block = exampleBlock →
    exec .expandkey s = .next t →
      ∃ u u', exec (.addroundkey 0) t = .next u ∧ u.block = blockOfHex 0x00102030405060708090a0b0c0d0e0f0 ∧
        exec (.addroundkey 10) t = .next u' ∧ u'.block = blockOfHex 0x13003f4ca7c12c607b9e0d3081f6de3a)

/-- R134: EXPANDKEY writes `expand_key(K[0..4*Nk-1])` to the first `4*(Nr+1)` words of W, sets SCHED_VALID, ERR = CAUSE =
0, and changes nothing else: the words above keep their values, and the bytes of K at and above `4*Nk` are not read. Its
word; run again it writes the same words; KSEL = 0 expands a 256-bit key; under FATAL it is ignored; the example. -/
def Obligations.ExpandKeyResult : Prop :=
  (∀ s : State, ∃ t, exec .expandkey s = .next t ∧
    t = { s with sched := t.sched,
                 status := { s.status with err := false, cause := .none, schedValid := true } } ∧
    (∀ i : Fin 60, t.sched[i] =
      if i.val < schedWords s.ksel then (expandKey s.key (keyWords s.ksel) (schedWords s.ksel)).getD i.val 0
      else s.sched[i]) ∧
    exec .expandkey t = .next t ∧
    ∀ key' : Vector Byte 32, (∀ i : Fin 32, i.val < 4 * keyWords s.ksel → key'[i] = s.key[i]) →
      exec .expandkey { s with key := key' } = .next { t with key := key' }) ∧
  decode 0x00000020 = .ok .expandkey ∧
  (∀ (w : Word) (s : State), s.status.fatal = true → hostRegWrite 0x000 w s = .next s) ∧
  (keyWords 0 = 8 ∧ schedWords 0 = 60) ∧
  (∀ s t : State, s.ksel = 128 → s.status.fatal = false → (∀ i : Fin 16, s.key[i.val] = BitVec.ofNat 8 i.val) →
    exec .expandkey s = .next t →
      t.sched[0] = 0x03020100 ∧ t.sched[1] = 0x07060504 ∧ t.sched[2] = 0x0b0a0908 ∧ t.sched[3] = 0x0f0e0d0c ∧
      t.sched[4] = 0xfd74aad6 ∧ t.sched[43] = 0xc5302b4d ∧ statusWord t.status = 0x00000002)

/-- ENCBLK and DECBLK with a valid schedule apply the forward or the inverse cipher to S under W and `Nr(KSEL)`; without
one they fail with NO_SCHEDULE; nothing else changes (44_cipher_driver.md R142, R143). -/
def Obligations.BlockCipherResults : Prop :=
  (∀ s : State, s.status.schedValid = true → exec .encblk s =
    .next { s with block := forwardCipher s.block s.sched (rounds s.ksel),
                   status := { s.status with err := false, cause := .none } }) ∧
  (∀ s : State, s.status.schedValid = true → exec .decblk s =
    .next { s with block := inverseCipher s.block s.sched (rounds s.ksel),
                   status := { s.status with err := false, cause := .none } }) ∧
  (∀ s : State, s.status.schedValid = false →
    exec .encblk s = .next { s with status := { s.status with err := true, cause := .noSchedule } } ∧
    exec .decblk s = .next { s with status := { s.status with err := true, cause := .noSchedule } })

/-- R150: the three checks of the mode commands in their order, each failing with its cause and nothing else changed;
the sum is on natural numbers. -/
def Obligations.ModeChecksInOrder : Prop :=
  ∀ (i : Instr) (s : State), isMode i = true →
    (s.dlen.toNat = 0 →
      exec i s = .next { s with status := { s.status with err := true, cause := .lenZero } }) ∧
    (s.dlen.toNat ≠ 0 → s.dlen.toNat % 16 ≠ 0 →
      exec i s = .next { s with status := { s.status with err := true, cause := .lenUnaligned } }) ∧
    (s.dlen.toNat ≠ 0 → s.dlen.toNat % 16 = 0 → s.cfg.dmemBytes < s.dptr.toNat + s.dlen.toNat →
      exec i s = .next { s with status := { s.status with err := true, cause := .range } })

/-- ECBENC and ECBDEC on a buffer that passes the checks: each block becomes its forward or inverse cipher under the
schedule of the present key, every byte outside the buffer keeps its value, and nothing else changes but W, SCHED_VALID,
ERR and CAUSE (45_mode_layer.md R151 to R154). -/
def Obligations.EcbResults : Prop :=
  (∀ s : State, s.bufferOk → ∃ t, exec .ecbenc s = .next t ∧ s.afterMode t ∧
    (∀ i, i < s.dlen.toNat / 16 → t.bufferBlock i = forwardCipher (s.bufferBlock i) t.sched (rounds s.ksel)) ∧
    (∀ a, s.outsideBuffer a → t.dmem.read a = s.dmem.read a)) ∧
  (∀ s : State, s.bufferOk → ∃ t, exec .ecbdec s = .next t ∧ s.afterMode t ∧
    (∀ i, i < s.dlen.toNat / 16 → t.bufferBlock i = inverseCipher (s.bufferBlock i) t.sched (rounds s.ksel)) ∧
    (∀ a, s.outsideBuffer a → t.dmem.read a = s.dmem.read a))

/-- CBCENC on a buffer that passes the checks: `C_i = forward_cipher(P_i ^ C_{i-1})` with C_{-1} = V, the rest as
ECBENC (R155 to R157). -/
def Obligations.CbcEncryptionResult : Prop :=
  ∀ s : State, s.bufferOk → ∃ t, exec .cbcenc s = .next t ∧ s.afterMode t ∧
    (∀ i, i < s.dlen.toNat / 16 → ∀ prev : Block,
      prev = (if i = 0 then s.iv else t.bufferBlock (i - 1)) →
        t.bufferBlock i =
          forwardCipher (Vector.ofFn fun j => (s.bufferBlock i)[j] ^^^ prev[j]) t.sched (rounds s.ksel)) ∧
    (∀ a, s.outsideBuffer a → t.dmem.read a = s.dmem.read a)

/-- CBCDEC on a buffer that passes the checks: `P_i = inverse_cipher(C_i) ^ C_{i-1}` with C_{-1} = V, where every C is
the ciphertext that was in the buffer when the command started; the rest as ECBDEC (R155, R156, R158). -/
def Obligations.CbcDecryptionResult : Prop :=
  ∀ s : State, s.bufferOk → ∃ t, exec .cbcdec s = .next t ∧ s.afterMode t ∧
    (∀ i, i < s.dlen.toNat / 16 → ∀ prev : Block,
      prev = (if i = 0 then s.iv else s.bufferBlock (i - 1)) →
        ∀ j : Fin 16, (t.bufferBlock i)[j] =
          (inverseCipher (s.bufferBlock i) t.sched (rounds s.ksel))[j] ^^^ prev[j]) ∧
    (∀ a, s.outsideBuffer a → t.dmem.read a = s.dmem.read a)

/-! ### The field and the S-box -/

/-- Multiplication is polynomial multiplication reduced modulo 0x11B: the product of the polynomials and the value of
`multiply` differ by a multiple of 0x11B (R90, R92). -/
def Obligations.MultiplyIsPolynomialProduct : Prop :=
  ∀ a b : Byte, ∃ q : Byte, polyMul a.toNat b.toNat = polyMul 0x11B q.toNat ^^^ (multiply a b).toNat

/-- R96: `multiply` is commutative, distributes over XOR and is associative; a non-zero byte times its inverse is 1, and
no other byte gives 1; a product is 0 only when a factor is 0; 1 is the identity; `inverse(0) = 0`. -/
def Obligations.FieldLaws : Prop :=
  (∀ a b : Byte, multiply a b = multiply b a) ∧
  (∀ a : Byte, a ≠ 0 → multiply a (inverse a) = 1) ∧
  (∀ a b c : Byte, multiply a (b ^^^ c) = multiply a b ^^^ multiply a c) ∧
  (∀ a b c : Byte, multiply (multiply a b) c = multiply a (multiply b c)) ∧
  (∀ a x : Byte, multiply a x = 1 → x = inverse a) ∧
  (∀ a b : Byte, multiply a b = 0 → a = 0 ∨ b = 0) ∧
  (∀ a : Byte, multiply 0x01 a = a ∧ multiply a 0x01 = a) ∧
  inverse 0 = 0

/-- R93: `inverse` is the search of the rule for every byte, though the model computes it from a table (log entry 8); for
a non-zero byte exactly one byte gives the product 1; the corner cases and the examples. -/
def Obligations.InverseIsTheSearch : Prop :=
  (∀ a : Byte, inverse a = inverseSearch a) ∧
  (∀ a x : Byte, a ≠ 0 → (multiply a x = 1 ↔ x = inverse a)) ∧
  (∀ a : Byte, inverse (inverse a) = a) ∧
  inverse 0x00 = 0x00 ∧ inverse 0x01 = 0x01 ∧ inverse 0x02 = 0x8D ∧ inverse 0x03 = 0xF6 ∧ inverse 0x53 = 0xCA ∧
  inverse 0xFF = 0x1C

/-- R100 and R101, by rotations and bit by bit, with indexes modulo 8: bit `i` of `forward_sbox(x)` is
`v[i] ^ v[i-1] ^ v[i-2] ^ v[i-3] ^ v[i-4] ^ c[i]` with `v = inverse(x)` and `c = 0x63`; `inverse_sbox(y)` is the inverse of
the byte with bits `y[i-1] ^ y[i-3] ^ y[i-6] ^ c[i]`, `c = 0x05`; the corner cases and the worked examples. -/
def Obligations.SboxFormulas : Prop :=
  (∀ x v : Byte, v = inverse x → forwardSbox x =
    v ^^^ v.rotateLeft 1 ^^^ v.rotateLeft 2 ^^^ v.rotateLeft 3 ^^^ v.rotateLeft 4 ^^^ 0x63) ∧
  (∀ (x : Byte) (i : Fin 8), (forwardSbox x).getLsbD i.val =
    ((inverse x).getLsbD i.val ^^ (inverse x).getLsbD ((i.val + 7) % 8) ^^ (inverse x).getLsbD ((i.val + 6) % 8) ^^
      (inverse x).getLsbD ((i.val + 5) % 8) ^^ (inverse x).getLsbD ((i.val + 4) % 8) ^^ (0x63#8).getLsbD i.val)) ∧
  (∀ y t : Byte, t = y.rotateLeft 1 ^^^ y.rotateLeft 3 ^^^ y.rotateLeft 6 ^^^ 0x05 → inverseSbox y = inverse t) ∧
  (∀ y t : Byte, (∀ i : Fin 8, t.getLsbD i.val =
    (y.getLsbD ((i.val + 7) % 8) ^^ y.getLsbD ((i.val + 5) % 8) ^^ y.getLsbD ((i.val + 2) % 8) ^^
      (0x05#8).getLsbD i.val)) → inverseSbox y = inverse t) ∧
  forwardSbox 0x00 = 0x63 ∧ forwardSbox 0x53 = 0xED ∧
  inverseSbox 0x63 = 0x00 ∧ inverseSbox 0x00 = 0x52 ∧ inverseSbox 0xED = 0x53

/-- R104: the two S-boxes are inverse bijections of the bytes; `forward_sbox` has no fixed point and no byte with
`forward_sbox(x) == x ^ 0xFF`. -/
def Obligations.SboxesAreInverse : Prop :=
  (∀ x : Byte, inverseSbox (forwardSbox x) = x) ∧
  (∀ y : Byte, forwardSbox (inverseSbox y) = y) ∧
  (∀ x : Byte, forwardSbox x ≠ x ∧ forwardSbox x ≠ x ^^^ 0xFF) ∧
  Function.Bijective forwardSbox ∧ Function.Bijective inverseSbox

/-! ### The round transforms, the key schedule, the cipher -/

/-- Each round transform is undone by its inverse, on every block and in both orders; AddRoundKey undoes itself (R111,
R114, R117, R120). -/
def Obligations.TransformsAreInvertible : Prop :=
  (∀ b : Block, invSubBytes (subBytes b) = b ∧ subBytes (invSubBytes b) = b) ∧
  (∀ b : Block, invShiftRows (shiftRows b) = b ∧ shiftRows (invShiftRows b) = b) ∧
  (∀ b : Block, invMixColumns (mixColumns b) = b ∧ mixColumns (invMixColumns b) = b) ∧
  (∀ (b : Block) (w : Vector Word 60) (n : Nat), addRoundKey (addRoundKey b w n) w n = b)

/-- The word helpers of R132 on the 32-bit number, and Rcon by doubling (R133). -/
def Obligations.KeyScheduleHelpers : Prop :=
  (∀ t : Word, rotWord t = (t >>> 8) ||| (t <<< 24)) ∧
  (∀ (t : Word) (c : Byte), addRcon t c = t ^^^ c.setWidth 32) ∧
  (∀ (t : Word) (r : Fin 4), byteOf (subWord t) r.val = forwardSbox (byteOf t r.val)) ∧
  rcon 1 = 0x01 ∧ (∀ j, 1 ≤ j → j ≤ 9 → rcon (j + 1) = xtime (rcon j))

/-- R135: for each key size, the schedule has `total_words` words, the first Nk are the packed key, and every later one
is `w[i-Nk]` XOR `temp`, with the three cases of `temp`; the worked steps. -/
def Obligations.KeyScheduleRecurrence : Prop :=
  (∀ (key : Vector Byte 32) (nk total : Nat), (nk, total) ∈ [(4, 44), (6, 52), (8, 60)] →
    ∀ w : List Word, w = expandKey key nk total →
      w.length = total ∧
      (∀ i, i < nk → w.getD i 0 =
        pack (key.getD (4 * i) 0) (key.getD (4 * i + 1) 0) (key.getD (4 * i + 2) 0) (key.getD (4 * i + 3) 0)) ∧
      (∀ i, nk ≤ i → i < total →
        (i % nk = 0 → w.getD i 0 =
          w.getD (i - nk) 0 ^^^ addRcon (subWord (rotWord (w.getD (i - 1) 0))) (rcon (i / nk))) ∧
        (i % nk ≠ 0 → nk = 8 → i % nk = 4 → w.getD i 0 = w.getD (i - nk) 0 ^^^ subWord (w.getD (i - 1) 0)) ∧
        (i % nk ≠ 0 → ¬(nk = 8 ∧ i % nk = 4) → w.getD i 0 = w.getD (i - nk) 0 ^^^ w.getD (i - 1) 0))) ∧
  (expandKey countingKey 4 44).getD 4 0 = 0xfd74aad6 ∧
  (expandKey countingKey 8 60).getD 8 0 = 0x9fc273a5 ∧ (expandKey countingKey 8 60).getD 12 0 = 0xcda85116

/-- R27: 128 and 192 select their sizes, and every other value of KSEL selects AES-256. -/
def Obligations.KeySizeSelector : Prop :=
  ∀ ksel : Word,
    (ksel = 128 → keyWords ksel = 4 ∧ rounds ksel = 10 ∧ schedWords ksel = 44) ∧
    (ksel = 192 → keyWords ksel = 6 ∧ rounds ksel = 12 ∧ schedWords ksel = 52) ∧
    (ksel ≠ 128 → ksel ≠ 192 → keyWords ksel = 8 ∧ rounds ksel = 14 ∧ schedWords ksel = 60)

/-- R144: the round trip in both orders, for every block, every schedule and every round count, and the known answer:
the schedule of the key that counts up from 0x00 maps the example block to the ciphertext of the rule. -/
def Obligations.CipherRoundTrip : Prop :=
  (∀ (b : Block) (w : Vector Word 60) (nr : Nat),
    inverseCipher (forwardCipher b w nr) w nr = b ∧ forwardCipher (inverseCipher b w nr) w nr = b) ∧
  forwardCipher exampleBlock (mergeSchedule (expandKey countingKey 4 44) (Vector.replicate 60 0)) 10 =
    blockOfHex 0x69c4e0d86a7b0430d8cdb78070b4c55a

/-- ENCBLK then DECBLK, and DECBLK then ENCBLK, leave S as it was (R143). -/
def Obligations.BlockCommandsRestoreBlock : Prop :=
  ∀ s : State, s.status.schedValid = true →
    (∃ t u, exec .encblk s = .next t ∧ exec .decblk t = .next u ∧ u.block = s.block) ∧
    (∃ t u, exec .decblk s = .next t ∧ exec .encblk t = .next u ∧ u.block = s.block)

/-- ENCBLK is the sequence ADDROUNDKEY 0, ROUND 1 .. ROUND Nr-1, FINALROUND Nr, and DECBLK is ADDROUNDKEY Nr, INVROUND
Nr-1 .. INVROUND 1, INVFINALROUND, in one step: the same end state (30_encoding.md R77, R142, R143). -/
def Obligations.BlockCommandsEqualSequences : Prop :=
  ∀ s : State, s.status.schedValid = true →
    runCommands (encblkSequence (rounds s.ksel)) s = exec .encblk s ∧
    runCommands (decblkSequence (rounds s.ksel)) s = exec .decblk s

/-- V is read by CBCENC and CBCDEC alone: every other command does the same whatever V holds. No command writes V,
CBCENC and CBCDEC included (10_state.md R23, 45_mode_layer.md R156). -/
def Obligations.OnlyCbcReadsIv : Prop :=
  (∀ (i : Instr) (s : State) (v : Block), i ≠ .cbcenc → i ≠ .cbcdec →
    ∃ t, exec i s = .next t ∧ exec i { s with iv := v } = .next { t with iv := v }) ∧
  (∀ (i : Instr) (s : State), ∃ t, exec i s = .next t ∧ t.iv = s.iv)

/-- ECBENC then ECBDEC restores every byte of DMEM (R154). -/
def Obligations.EcbRoundTrip : Prop :=
  ∀ s : State, s.bufferOk → ∃ t u, exec .ecbenc s = .next t ∧ exec .ecbdec t = .next u ∧
    ∀ a, u.dmem.read a = s.dmem.read a

/-- CBCENC then CBCDEC restores every byte of DMEM (R159). -/
def Obligations.CbcRoundTrip : Prop :=
  ∀ s : State, s.bufferOk → ∃ t u, exec .cbcenc s = .next t ∧ exec .cbcdec t = .next u ∧
    ∀ a, u.dmem.read a = s.dmem.read a

/-- The corruption property of R159: when two buffers differ in ciphertext block `i` only, their decryptions differ in
block `i`, differ in block `i+1` by exactly the difference of the two ciphertext blocks, and agree in every other
block. -/
def Obligations.CbcErrorPropagation : Prop :=
  ∀ (s : State) (m : Memory) (i : Nat), s.bufferOk → i < s.dlen.toNat / 16 →
    (∀ k, k < s.dlen.toNat / 16 → k ≠ i → ({ s with dmem := m } : State).bufferBlock k = s.bufferBlock k) →
    ({ s with dmem := m } : State).bufferBlock i ≠ s.bufferBlock i →
      ∃ t u, exec .cbcdec s = .next t ∧ exec .cbcdec { s with dmem := m } = .next u ∧
        u.bufferBlock i ≠ t.bufferBlock i ∧
        (i + 1 < s.dlen.toNat / 16 → ∀ j : Fin 16,
          (u.bufferBlock (i + 1))[j] ^^^ (t.bufferBlock (i + 1))[j] =
            (({ s with dmem := m } : State).bufferBlock i)[j] ^^^ (s.bufferBlock i)[j]) ∧
        (∀ k, k < s.dlen.toNat / 16 → k ≠ i → k ≠ i + 1 → u.bufferBlock k = t.bufferBlock k)

/-! ### The host -/

/-- The register map of R35: each register stands at its offset and at no other, and no other offset has one. -/
def Obligations.RegisterMapExact : Prop :=
  ∀ (off : Nat) (r : Reg), regAt off = some r ↔ off = r.offset

/-- The value a register read returns, for every register; nothing else changes (R30, R171). -/
def Obligations.RegisterReads : Prop :=
  ∀ s : State, ∀ off v,
    ((off = 0x000 ∧ v = 0) ∨
      (off = 0x004 ∧ v.toNat = s.status.err.toNat + 2 * s.status.schedValid.toNat + 4 * s.status.fatal.toNat +
        16 * s.status.cause.code) ∨
      (off = 0x008 ∧ v = s.ksel) ∨ (off = 0x00C ∧ v.toNat = s.res.toNat) ∨ (off = 0x010 ∧ v = s.dptr) ∨
      (off = 0x014 ∧ v = s.dlen) ∨
      (∃ j : Fin 8, off = 0x020 + 4 * j.val ∧ ∀ r : Fin 4, byteOf v r.val = s.key[4 * j.val + r.val]) ∨
      (∃ c : Fin 4, off = 0x040 + 4 * c.val ∧ ∀ r : Fin 4, byteOf v r.val = s.block[4 * c.val + r.val]) ∨
      (∃ c : Fin 4, off = 0x050 + 4 * c.val ∧ ∀ r : Fin 4, byteOf v r.val = s.iv[4 * c.val + r.val]) ∨
      (∃ i : Fin 60, off = 0x100 + 4 * i.val ∧ v = s.sched[i])) →
    hostOp (.regRead off) s = .next { s with replies := s.replies ++ [.word v] }

/-- What a register write other than to CMD stores: read-only registers ignore it; KSEL and KEYj also clear SCHED_VALID;
ERR and CAUSE are never touched (R31, R171). -/
def Obligations.RegisterWrites : Prop :=
  ∀ (s : State) (v : Word),
    (hostOp (.regWrite 0x004 v) s = .next s ∧ hostOp (.regWrite 0x00C v) s = .next s ∧
      ∀ i : Fin 60, hostOp (.regWrite (0x100 + 4 * i.val) v) s = .next s) ∧
    hostOp (.regWrite 0x008 v) s = .next { s with ksel := v, status := { s.status with schedValid := false } } ∧
    hostOp (.regWrite 0x010 v) s = .next { s with dptr := v } ∧
    hostOp (.regWrite 0x014 v) s = .next { s with dlen := v } ∧
    (∀ j : Fin 8, ∃ t, hostOp (.regWrite (0x020 + 4 * j.val) v) s = .next t ∧
      t = { s with key := t.key, status := { s.status with schedValid := false } } ∧
      ∀ k : Fin 32, t.key[k] = if k.val / 4 = j.val then byteOf v (k.val % 4) else s.key[k]) ∧
    (∀ c : Fin 4, ∃ t, hostOp (.regWrite (0x040 + 4 * c.val) v) s = .next t ∧ t = { s with block := t.block } ∧
      ∀ k : Fin 16, t.block[k] = if k.val / 4 = c.val then byteOf v (k.val % 4) else s.block[k]) ∧
    (∀ c : Fin 4, ∃ t, hostOp (.regWrite (0x050 + 4 * c.val) v) s = .next t ∧ t = { s with iv := t.iv } ∧
      ∀ k : Fin 16, t.iv[k] = if k.val / 4 = c.val then byteOf v (k.val % 4) else s.iv[k])

/-- A word written to a readable and writable register reads back, and no other register changes but STATUS, which
a write to KSEL or a KEYj changes in SCHED_VALID alone and no other of these writes changes: BLKc, KEYj and IVc are views
of distinct bytes (10_state.md R31, R37). -/
def Obligations.DataRegistersReadBack : Prop :=
  ∀ (s : State) (v : Word) (r q : Reg),
    (∃ j, r = .key j) ∨ (∃ c, r = .blk c) ∨ (∃ c, r = .iv c) ∨ r = .ksel ∨ r = .dptr ∨ r = .dlen →
      ∃ t, hostOp (.regWrite r.offset v) s = .next t ∧ t.readReg r = v ∧
        (q ≠ r → q ≠ .status → t.readReg q = s.readReg q) ∧
        ((r = .ksel ∨ ∃ j, r = .key j) → t.status = { s.status with schedValid := false }) ∧
        (r ≠ .ksel → (∀ j, r ≠ .key j) → t.readReg .status = s.readReg .status)

/-- DMEM through the host: a write below `DMEM_BYTES` is seen by a read of that address and by no other, and changes
nothing else; a read returns the byte and changes nothing else (R50, R171). -/
def Obligations.DmemAccesses : Prop :=
  ∀ (s : State) (a : Nat), a < s.cfg.dmemBytes →
    hostOp (.dmemRead a) s = .next { s with replies := s.replies ++ [.byte (s.dmem.read a)] } ∧
    ∀ v : Byte, ∃ t, hostOp (.dmemWrite a v) s = .next t ∧ t = { s with dmem := t.dmem } ∧
      ∀ b, t.dmem.read b = if b = a then v else s.dmem.read b

/-- An access outside the maps gives the host no move: a register access to an offset that is reserved, not a multiple
of 4, or above 0xFFF is refused, and so is a DMEM access at or above `DMEM_BYTES` (R35, R171, U3, U4). The names of the two
stops are the model's (log entries 6 and 7). -/
def Obligations.OutsideAccessesStop : Prop :=
  (∀ (s : State) (off : Nat) (v : Word),
    off % 4 ≠ 0 ∨ (0x018 ≤ off ∧ off < 0x020) ∨ (0x060 ≤ off ∧ off < 0x100) ∨ 0x1F0 ≤ off →
      hostOp (.regRead off) s = .refused (.reservedOffset off) ∧
      hostOp (.regWrite off v) s = .refused (.reservedOffset off)) ∧
  (∀ (s : State) (a : Nat) (v : Byte), s.cfg.dmemBytes ≤ a →
    hostOp (.dmemRead a) s = .refused (.dmemOutOfRange a) ∧
    hostOp (.dmemWrite a v) s = .refused (.dmemOutOfRange a))

/-- R210: Reset sets the four STATUS fields, KSEL, DPTR, DLEN and RES to 0 and does not touch DMEM; S, K, V and W are
left open. The host's pending operations, received values and the configuration are no part of the core. -/
def Obligations.ResetEffect : Prop :=
  ∀ s : State, ∃ t, hostOp .reset s = .next t ∧
    t.status.err = false ∧ t.status.schedValid = false ∧ t.status.fatal = false ∧ t.status.cause = .none ∧
    t.ksel = 0 ∧ t.dptr = 0 ∧ t.dlen = 0 ∧ t.res = 0 ∧ t.dmem = s.dmem ∧
    t.cfg = s.cfg ∧ t.host = s.host ∧ t.replies = s.replies

/-- The values the spec gives for the state right after reset (10_state.md R36). -/
def Obligations.ResetStateValues : Prop :=
  State.reset.status.err = false ∧ State.reset.status.schedValid = false ∧ State.reset.status.fatal = false ∧
  State.reset.status.cause = .none ∧ State.reset.ksel = 0 ∧ State.reset.dptr = 0 ∧ State.reset.dlen = 0 ∧
  State.reset.res = 0

/-- What works straight after a Reset, whatever it left in S, K, V and W (70_reset_and_hazards.md R211). -/
def Obligations.FirstCommandsAfterReset : Prop :=
  ∀ s t : State, hostOp .reset s = .next t →
    (∃ u, hostOp (.regRead 0x004) t = .next u ∧ u.replies = t.replies ++ [.word 0]) ∧
    (∀ i : Instr, i = .nop ∨ writesRes i = true ∨ i ∈ [.subbytes, .invsubbytes, .shiftrows, .invshiftrows, .mixcolumns,
        .invmixcolumns] → ∃ u, exec i t = .next u ∧ u.status.err = false) ∧
    (∀ i : Instr, i = .encblk ∨ i = .decblk ∨ (∃ n, i = .addroundkey n) →
      ∃ u, exec i t = .next u ∧ statusWord u.status = 0x00000051 ∧ u.block = t.block) ∧
    (∀ i : Instr, isMode i = true → ∃ u, exec i t = .next u ∧ statusWord u.status = 0x00000021 ∧ u.dmem = t.dmem) ∧
    (∃ u, exec .expandkey t = .next u ∧ statusWord u.status = 0x00000002 ∧
      ∀ i : Fin 60, u.sched[i] = (expandKey t.key 8 60).getD i.val 0)

/-- The key-change hazard: after any write to KSEL or a KEYj, ENCBLK, DECBLK and ADDROUNDKEY fail with NO_SCHEDULE, and
W still holds its words; and with SCHED_VALID = 0 they go on failing so after every further host operation but a write of
an expanding command to CMD (R31, R216, R220). -/
def Obligations.KeyChangeInvalidatesSchedule : Prop :=
  (∀ (s : State) (r : Reg) (v : Word), r = .ksel ∨ (∃ j, r = .key j) →
    ∃ t, hostOp (.regWrite r.offset v) s = .next t ∧ t.sched = s.sched ∧ t.status.schedValid = false ∧
      ∀ i : Instr, i = .encblk ∨ i = .decblk ∨ (∃ n, i = .addroundkey n) →
        exec i t = .next { t with status := { t.status with err := true, cause := .noSchedule } }) ∧
  (∀ (op : HostOp) (s t : State), s.status.schedValid = false → hostOp op s = .next t →
    (∀ w i, op = .regWrite 0x000 w → decode w = .ok i → expands i = false) →
      t.status.schedValid = false ∧
      ∀ i : Instr, i = .encblk ∨ i = .decblk ∨ (∃ n, i = .addroundkey n) →
        exec i t = .next { t with status := { t.status with err := true, cause := .noSchedule } })

/-- R31: a successful EXPANDKEY or mode command sets SCHED_VALID; Reset and every write to KSEL or a KEYj clear it,
whatever the value; nothing else changes it, a failed command least of all. -/
def Obligations.SchedValidRule : Prop :=
  (∀ (i : Instr) (s t : State), expands i = true → exec i s = .next t → t.status.err = false →
    t.status.schedValid = true) ∧
  (∀ s t : State, hostOp .reset s = .next t → t.status.schedValid = false) ∧
  (∀ (s : State) (r : Reg) (v : Word), r = .ksel ∨ (∃ j, r = .key j) →
    ∃ t, hostOp (.regWrite r.offset v) s = .next t ∧ t.status.schedValid = false) ∧
  (∀ (op : HostOp) (s t : State), hostOp op s = .next t → t.status.schedValid ≠ s.status.schedValid →
    op = .reset ∨ (∃ v, op = .regWrite 0x008 v) ∨ (∃ (j : Fin 8) (v : Word), op = .regWrite (0x020 + 4 * j.val) v) ∨
      ∃ w i, op = .regWrite 0x000 w ∧ decode w = .ok i ∧ expands i = true ∧ t.status.err = false)

/-- Packing and taking bytes are inverse: `byte(pack(b0,b1,b2,b3), r) == b_r`, and a word is the pack of its bytes
(00_scope.md R10). -/
def Obligations.PackingIsLittleEndian : Prop :=
  (∀ (w : Word) (r : Fin 4) (k : Fin 8), (byteOf w r.val).getLsbD k.val = w.getLsbD (8 * r.val + k.val)) ∧
  (∀ b0 b1 b2 b3 : Byte, byteOf (pack b0 b1 b2 b3) 0 = b0 ∧ byteOf (pack b0 b1 b2 b3) 1 = b1 ∧
    byteOf (pack b0 b1 b2 b3) 2 = b2 ∧ byteOf (pack b0 b1 b2 b3) 3 = b3) ∧
  (∀ w : Word, pack (byteOf w 0) (byteOf w 1) (byteOf w 2) (byteOf w 3) = w) ∧
  (∀ b0 b1 b2 b3 : Byte, (pack b0 b1 b2 b3).toNat =
    b0.toNat + 256 * b1.toNat + 65536 * b2.toNat + 16777216 * b3.toNat)
end

