-- ==== Sys2Proof/Laws/Decode.lean ====
section
/-!
SUPPORT. The fields of a command word built from fields (30_encoding.md R71).
-/

namespace Sys2Proof

@[simp] theorem fieldOp_commandWord (op a b : Byte) : fieldOp (commandWord op a b) = op := by
  apply BitVec.eq_of_getLsbD_eq
  intro i hi
  interval_cases i <;> simp [fieldOp, commandWord]

@[simp] theorem fieldA_commandWord (op a b : Byte) : fieldA (commandWord op a b) = a := by
  apply BitVec.eq_of_getLsbD_eq
  intro i hi
  interval_cases i <;> simp [fieldA, commandWord]

@[simp] theorem fieldB_commandWord (op a b : Byte) : fieldB (commandWord op a b) = b := by
  apply BitVec.eq_of_getLsbD_eq
  intro i hi
  interval_cases i <;> simp [fieldB, commandWord]

@[simp] theorem fieldZ_commandWord (op a b : Byte) : fieldZ (commandWord op a b) = 0 := by
  apply BitVec.eq_of_getLsbD_eq
  intro i hi
  interval_cases i <;> simp [fieldZ, commandWord]

/-- A word with `z = 0` is the word of its fields. -/
theorem commandWord_fields (w : Word) (h : fieldZ w = 0) : commandWord (fieldOp w) (fieldA w) (fieldB w) = w := by
  have hz : ∀ k, k < 8 → w.getLsbD (24 + k) = false := by
    intro k hk
    simpa [fieldZ, hk] using congrArg (·.getLsbD k) h
  apply BitVec.eq_of_getLsbD_eq
  intro i hi
  have := hz (i - 24)
  interval_cases i <;> simp_all [commandWord, fieldOp, fieldA, fieldB]

end Sys2Proof
end

