-- ==== Sys2Proof/Laws/KeySchedule.lean ====
section
/-!
SUPPORT. The key schedule as a list: its length, and that a word once computed never changes.
-/

namespace Sys2Proof.Machine

@[simp] theorem getElem_mergeSchedule (ws : List Word) (old : Vector Word 60) (i : Nat) (h : i < 60) :
    (mergeSchedule ws old)[i] = ws.getD i old[i] := by
  simp [mergeSchedule]

@[simp] theorem length_expandWords (key : Vector Byte 32) (nk extra : Nat) :
    (expandWords key nk extra).length = nk + extra := by
  induction extra with
  | zero => simp [expandWords]
  | succ e ih => simp [expandWords, ih]; omega

/-- One of the first Nk words is a packed key word. -/
theorem getD_expandWords_key (key : Vector Byte 32) (nk extra i : Nat) (h : i < nk) (d : Word) :
    (expandWords key nk extra).getD i d = wordAt key i := by
  induction extra with
  | zero => simp [expandWords, h]
  | succ e ih =>
    rw [expandWords, List.getD_append _ _ _ _ (by simp; omega), ih]

/-- A later word is what R135 computes from the words before it, however long the list has become. -/
theorem getD_expandWords_step (key : Vector Byte 32) (nk extra e : Nat) (h : e < extra) (d : Word) :
    (expandWords key nk extra).getD (nk + e) d = scheduleWord nk (expandWords key nk e) (nk + e) := by
  induction extra with
  | zero => omega
  | succ n ih =>
    by_cases he : e = n
    · subst he
      rw [expandWords, List.getD_append_right _ _ _ _ (by simp)]
      simp
    · rw [expandWords, List.getD_append _ _ _ _ (by simp; omega), ih (by omega)]

/-- A word of a shorter list is that word of a longer one. -/
theorem getD_expandWords_prefix (key : Vector Byte 32) (nk e extra i : Nat) (h : i < nk + e) (he : e ≤ extra)
    (d : Word) : (expandWords key nk e).getD i d = (expandWords key nk extra).getD i d := by
  by_cases hi : i < nk
  · rw [getD_expandWords_key _ _ _ _ hi, getD_expandWords_key _ _ _ _ hi]
  · obtain ⟨k, rfl⟩ : ∃ k, i = nk + k := ⟨i - nk, by omega⟩
    rw [getD_expandWords_step _ _ _ _ (by omega), getD_expandWords_step _ _ _ _ (by omega)]

theorem length_expandKey (key : Vector Byte 32) (nk total : Nat) (h : nk ≤ total) :
    (expandKey key nk total).length = total := by
  simp [expandKey]; omega

end Sys2Proof.Machine
end

