-- ==== Sys2Proof/Laws/Memory.lean ====
section
/-!
SUPPORT. DMEM: what a read gives after a write, and that every operation keeps the canonical form.
-/

namespace Sys2Proof.Machine

@[simp] theorem Memory.read_nil (a : Nat) : Memory.read [] a = Config.unlistedByte := rfl

@[simp] theorem Memory.read_erase_same (m : Memory) (a : Nat) : (m.erase a).read a = Config.unlistedByte := by
  induction m with
  | nil => rfl
  | cons c m ih =>
    obtain ⟨b, u⟩ := c
    by_cases h : b = a
    · simpa [Memory.erase, h] using ih
    · simp only [Memory.erase, List.filter_cons, bne_iff_ne, ne_eq, h, not_false_iff, if_pos, Memory.read]
      rw [if_neg fun e => h e.symm]
      exact ih

theorem Memory.read_erase_other (m : Memory) {a x : Nat} (hx : x ≠ a) : (m.erase a).read x = m.read x := by
  induction m with
  | nil => rfl
  | cons c m ih =>
    obtain ⟨b, u⟩ := c
    by_cases h : b = a
    · simpa [Memory.erase, h, Memory.read, hx] using ih
    · simp only [Memory.erase, List.filter_cons, bne_iff_ne, ne_eq, h, not_false_iff, if_pos, Memory.read]
      rw [← ih, Memory.erase]

/-- An entry put into a memory that had none for its address is what that address reads. -/
theorem Memory.read_insert {m : Memory} {a : Nat} (h : ∀ c ∈ m, c.1 ≠ a) (v : Byte) (x : Nat) :
    (m.insert a v).read x = if x = a then v else m.read x := by
  induction m with
  | nil => rfl
  | cons c m ih =>
    obtain ⟨b, u⟩ := c
    have hb : b ≠ a := h (b, u) (by simp)
    simp only [Memory.insert]
    split
    · rfl
    · simp only [Memory.read, ih fun c hc => h c (List.mem_cons_of_mem _ hc)]
      by_cases hx : x = b
      · rw [if_pos hx, if_pos hx, if_neg (hx ▸ hb)]
      · rw [if_neg hx, if_neg hx]

theorem Memory.mem_erase {m : Memory} {a : Nat} {c : Host.Cell} : c ∈ m.erase a ↔ c ∈ m ∧ c.1 ≠ a := by
  simp [Memory.erase]

theorem Memory.mem_insert {m : Memory} {a : Nat} {v : Byte} {c : Host.Cell} :
    c ∈ m.insert a v ↔ c = (a, v) ∨ c ∈ m := by
  induction m with
  | nil => simp [Memory.insert]
  | cons d m ih =>
    simp only [Memory.insert]
    split
    · simp
    · simp only [List.mem_cons, ih]
      tauto

/-- A read after a write: the byte written at that address, the old byte at every other. -/
theorem Memory.read_write (m : Memory) (a : Nat) (v : Byte) (x : Nat) :
    (m.write a v).read x = if x = a then v else m.read x := by
  unfold Memory.write
  split
  · rename_i hv
    by_cases hx : x = a
    · simp [hx, hv]
    · rw [Memory.read_erase_other m hx, if_neg hx]
  · rw [Memory.read_insert fun c hc => (Memory.mem_erase.mp hc).2]
    by_cases hx : x = a
    · simp [hx]
    · rw [if_neg hx, if_neg hx, Memory.read_erase_other m hx]

/-- What a write can leave listed: the written cell, and cells that were there. -/
theorem Memory.mem_write {m : Memory} {a : Nat} {v : Byte} {c : Host.Cell} (h : c ∈ m.write a v) :
    (c = (a, v) ∧ v ≠ Config.unlistedByte) ∨ c ∈ m := by
  unfold Memory.write at h
  split at h
  · exact .inr (Memory.mem_erase.mp h).1
  · rcases Memory.mem_insert.mp h with h | h
    · exact .inl ⟨h, by assumption⟩
    · exact .inr (Memory.mem_erase.mp h).1

/-- Putting an entry for a new address keeps the addresses rising. -/
theorem Memory.pairwise_insert {m : Memory} {a : Nat} (h : m.Pairwise fun x y => x.1 < y.1)
    (hn : ∀ c ∈ m, c.1 ≠ a) (v : Byte) : (m.insert a v).Pairwise fun x y => x.1 < y.1 := by
  induction m with
  | nil => simp [Memory.insert]
  | cons d m ih =>
    have hd := List.pairwise_cons.mp h
    simp only [Memory.insert]
    split
    · rename_i had
      refine List.pairwise_cons.mpr ⟨fun c hc => ?_, h⟩
      rcases List.mem_cons.mp hc with rfl | hc
      · exact had
      · exact had.trans (hd.1 c hc)
    · refine List.pairwise_cons.mpr ⟨fun c hc => ?_, ih hd.2 fun c hc => hn c (List.mem_cons_of_mem _ hc)⟩
      rcases Memory.mem_insert.mp hc with rfl | hc
      · have := hn d (by simp)
        simp only
        omega
      · exact hd.1 c hc

/-- A write keeps the canonical form. -/
theorem Memory.wf_write {m : Memory} (h : m.wf) (a : Nat) (v : Byte) : (m.write a v).wf := by
  refine ⟨?_, fun c hc => ?_⟩
  · unfold Memory.write
    split
    · exact h.1.filter _
    · exact Memory.pairwise_insert (h.1.filter _) (fun c hc => (Memory.mem_erase.mp hc).2) v
  · rcases Memory.mem_write hc with ⟨rfl, hv⟩ | hc
    · exact hv
    · exact h.2 c hc

/-- Writing a sequence of bytes keeps the canonical form. -/
theorem Memory.wf_writeBytes {m : Memory} (h : m.wf) (a : Nat) (vs : List Byte) : (m.writeBytes a vs).wf := by
  induction vs generalizing m a with
  | nil => exact h
  | cons v vs ih => exact ih (Memory.wf_write h a v) (a + 1)

/-- What writing a sequence of bytes can leave listed. -/
theorem Memory.mem_writeBytes {m : Memory} {a : Nat} {vs : List Byte} {c : Host.Cell} (h : c ∈ m.writeBytes a vs) :
    (a ≤ c.1 ∧ c.1 < a + vs.length) ∨ c ∈ m := by
  induction vs generalizing m a with
  | nil => exact .inr h
  | cons v vs ih =>
    simp only [List.length_cons]
    rcases ih h with h | h
    · exact .inl (by omega)
    · rcases Memory.mem_write h with ⟨rfl, _⟩ | h
      · exact .inl (by simp)
      · exact .inr h

/-- A read after a write of a sequence of bytes. -/
theorem Memory.read_writeBytes (m : Memory) (a : Nat) (vs : List Byte) (x : Nat) :
    (m.writeBytes a vs).read x = if a ≤ x ∧ x < a + vs.length then vs.getD (x - a) 0 else m.read x := by
  induction vs generalizing m a with
  | nil =>
    simp only [Memory.writeBytes, List.length_nil]
    rw [if_neg (by omega)]
  | cons v vs ih =>
    simp only [Memory.writeBytes, List.length_cons]
    rw [ih, Memory.read_write]
    by_cases hx : x = a
    · subst hx
      rw [if_neg (by omega), if_pos rfl, if_pos (by omega)]
      simp
    · rw [if_neg hx]
      by_cases hin : a + 1 ≤ x ∧ x < a + 1 + vs.length
      · rw [if_pos hin, if_pos (by omega)]
        obtain ⟨k, hk⟩ : ∃ k, x - a = k + 1 := ⟨x - a - 1, by omega⟩
        have : x - (a + 1) = k := by omega
        simp [hk, this]
      · rw [if_neg hin, if_neg (by omega)]

/-- A write of a block keeps the canonical form. -/
theorem Memory.wf_writeBlock {m : Memory} (h : m.wf) (a : Nat) (v : Block) : (m.writeBlock a v).wf :=
  Memory.wf_writeBytes h a v.toList

/-- What a write of a block can leave listed. -/
theorem Memory.mem_writeBlock {m : Memory} {a : Nat} {v : Block} {c : Host.Cell} (h : c ∈ m.writeBlock a v) :
    (a ≤ c.1 ∧ c.1 < a + 16) ∨ c ∈ m := by
  simpa using Memory.mem_writeBytes h

/-- A read inside a block just written. -/
theorem Memory.read_writeBlock_inside (m : Memory) (a : Nat) (v : Block) (j : Nat) (hj : j < 16) :
    (m.writeBlock a v).read (a + j) = v[j] := by
  rw [Memory.writeBlock, Memory.read_writeBytes, if_pos (by simp; omega)]
  simp [hj]

/-- A read outside a block just written. -/
theorem Memory.read_writeBlock_outside (m : Memory) (a : Nat) (v : Block) (x : Nat)
    (hx : x < a ∨ a + 16 ≤ x) : (m.writeBlock a v).read x = m.read x := by
  rw [Memory.writeBlock, Memory.read_writeBytes, if_neg (by simp; omega)]

@[simp] theorem Memory.getElem_readBlock (m : Memory) (a j : Nat) (h : j < 16) :
    (m.readBlock a)[j] = m.read (a + j) := by
  simp [Memory.readBlock]

/-- A block just written reads back. -/
theorem Memory.readBlock_writeBlock_same (m : Memory) (a : Nat) (v : Block) :
    (m.writeBlock a v).readBlock a = v := by
  apply Vector.ext
  intro j hj
  simp [Memory.read_writeBlock_inside m a v j hj]

/-- A write of a block leaves a disjoint block alone. -/
theorem Memory.readBlock_writeBlock_other (m : Memory) (a b : Nat) (v : Block)
    (hd : b + 16 ≤ a ∨ a + 16 ≤ b) : (m.writeBlock a v).readBlock b = m.readBlock b := by
  apply Vector.ext
  intro j hj
  simp [Memory.read_writeBlock_outside m a v (b + j) (by omega)]

/-- The memory right after reset is in canonical form. -/
theorem Memory.wf_reset : State.reset.dmem.wf := by decide

end Sys2Proof.Machine
end

