-- ==== Sys2Proof/Laws/Operands.lean ====
section
/-!
SUPPORT. The operand forms: rows and columns of a block, word views of byte registers, XOR of blocks.
-/

namespace Sys2Proof.Machine

/-- Two blocks with the same byte in every row and column are equal. -/
theorem block_ext_cells {x y : Block} (h : ∀ C R, cell x C R = cell y C R) : x = y := by
  apply Vector.ext
  intro i hi
  have := h ⟨i / 4, by omega⟩ ⟨i % 4, by omega⟩
  simp only [cell] at this
  have e : 4 * (i / 4) + i % 4 = i := by omega
  simpa only [e] using this

@[simp] theorem cell_ofCells (f : Fin 4 → Fin 4 → Byte) (C R : Fin 4) : cell (ofCells f) C R = f C R := by
  simp only [cell, ofCells, Vector.getElem_ofFn]
  congr 1
  · ext; simp only; omega
  · ext; simp only; omega

@[simp] theorem cell_map (f : Byte → Byte) (x : Block) (C R : Fin 4) : cell (x.map f) C R = f (cell x C R) := by
  simp [cell]

@[simp] theorem getElem_xorBlock (x y : Block) (i : Nat) (h : i < 16) : (xorBlock x y)[i] = x[i] ^^^ y[i] := by
  simp [xorBlock]

/-- XOR with the same block twice is nothing. -/
@[simp] theorem xorBlock_xorBlock_self (x y : Block) : xorBlock (xorBlock x y) y = x := by
  apply Vector.ext
  intro i hi
  simp

@[simp] theorem getElem_setWordAt {n : Nat} (v : Vector Byte n) (j : Nat) (w : Word) (i : Nat) (h : i < n) :
    (setWordAt v j w)[i] = if i / 4 = j then byteOf w (i % 4) else v[i] := by
  simp [setWordAt]

/-- `Nk` is 4, 6 or 8 with `Nr` 10, 12 or 14 (R27). -/
theorem keySize_cases (ksel : Word) :
    (keyWords ksel = 4 ∧ rounds ksel = 10) ∨ (keyWords ksel = 6 ∧ rounds ksel = 12) ∨
      (keyWords ksel = 8 ∧ rounds ksel = 14) := by
  unfold keyWords rounds
  split
  · exact .inl ⟨rfl, rfl⟩
  · split
    · exact .inr (.inl ⟨rfl, rfl⟩)
    · exact .inr (.inr ⟨rfl, rfl⟩)

end Sys2Proof.Machine
end

