-- ==== Sys2Proof/Laws/State.lean ====
section
/-!
SUPPORT. One lemma per field per update of State and of Status, true by rfl: no later proof unfolds a record update.
-/

namespace Sys2Proof.Machine

/-! ### `statusSuccess` -/

@[simp] theorem statusSuccess_err (st : Status) : (statusSuccess st).err = false := rfl
@[simp] theorem statusSuccess_schedValid (st : Status) : (statusSuccess st).schedValid = st.schedValid := rfl
@[simp] theorem statusSuccess_fatal (st : Status) : (statusSuccess st).fatal = st.fatal := rfl
@[simp] theorem statusSuccess_cause (st : Status) : (statusSuccess st).cause = .none := rfl

/-! ### `statusError` -/

@[simp] theorem statusError_err (st : Status) (c : Cause) : (statusError c st).err = true := rfl
@[simp] theorem statusError_schedValid (st : Status) (c : Cause) : (statusError c st).schedValid = st.schedValid := rfl
@[simp] theorem statusError_fatal (st : Status) (c : Cause) : (statusError c st).fatal = st.fatal := rfl
@[simp] theorem statusError_cause (st : Status) (c : Cause) : (statusError c st).cause = c := rfl

/-! ### `statusFatal` -/

@[simp] theorem statusFatal_err (st : Status) (c : Cause) : (statusFatal c st).err = true := rfl
@[simp] theorem statusFatal_schedValid (st : Status) (c : Cause) : (statusFatal c st).schedValid = st.schedValid := rfl
@[simp] theorem statusFatal_fatal (st : Status) (c : Cause) : (statusFatal c st).fatal = true := rfl
@[simp] theorem statusFatal_cause (st : Status) (c : Cause) : (statusFatal c st).cause = c := rfl

/-! ### `statusSchedValid` -/

@[simp] theorem statusSchedValid_err (st : Status) (b : Bool) : (statusSchedValid b st).err = st.err := rfl
@[simp] theorem statusSchedValid_schedValid (st : Status) (b : Bool) : (statusSchedValid b st).schedValid = b := rfl
@[simp] theorem statusSchedValid_fatal (st : Status) (b : Bool) : (statusSchedValid b st).fatal = st.fatal := rfl
@[simp] theorem statusSchedValid_cause (st : Status) (b : Bool) : (statusSchedValid b st).cause = st.cause := rfl

/-! ### `State.setRes` -/

@[simp] theorem State.setRes_block (s : State) (v : Byte) : (s.setRes v).block = s.block := rfl
@[simp] theorem State.setRes_key (s : State) (v : Byte) : (s.setRes v).key = s.key := rfl
@[simp] theorem State.setRes_iv (s : State) (v : Byte) : (s.setRes v).iv = s.iv := rfl
@[simp] theorem State.setRes_res (s : State) (v : Byte) : (s.setRes v).res = v := rfl
@[simp] theorem State.setRes_sched (s : State) (v : Byte) : (s.setRes v).sched = s.sched := rfl
@[simp] theorem State.setRes_ksel (s : State) (v : Byte) : (s.setRes v).ksel = s.ksel := rfl
@[simp] theorem State.setRes_dptr (s : State) (v : Byte) : (s.setRes v).dptr = s.dptr := rfl
@[simp] theorem State.setRes_dlen (s : State) (v : Byte) : (s.setRes v).dlen = s.dlen := rfl
@[simp] theorem State.setRes_status (s : State) (v : Byte) : (s.setRes v).status = s.status := rfl
@[simp] theorem State.setRes_dmem (s : State) (v : Byte) : (s.setRes v).dmem = s.dmem := rfl
@[simp] theorem State.setRes_cfg (s : State) (v : Byte) : (s.setRes v).cfg = s.cfg := rfl
@[simp] theorem State.setRes_host (s : State) (v : Byte) : (s.setRes v).host = s.host := rfl
@[simp] theorem State.setRes_replies (s : State) (v : Byte) : (s.setRes v).replies = s.replies := rfl
@[simp] theorem State.setRes_resets (s : State) (v : Byte) : (s.setRes v).resets = s.resets := rfl

/-! ### `State.setBlock` -/

@[simp] theorem State.setBlock_block (s : State) (v : Block) : (s.setBlock v).block = v := rfl
@[simp] theorem State.setBlock_key (s : State) (v : Block) : (s.setBlock v).key = s.key := rfl
@[simp] theorem State.setBlock_iv (s : State) (v : Block) : (s.setBlock v).iv = s.iv := rfl
@[simp] theorem State.setBlock_res (s : State) (v : Block) : (s.setBlock v).res = s.res := rfl
@[simp] theorem State.setBlock_sched (s : State) (v : Block) : (s.setBlock v).sched = s.sched := rfl
@[simp] theorem State.setBlock_ksel (s : State) (v : Block) : (s.setBlock v).ksel = s.ksel := rfl
@[simp] theorem State.setBlock_dptr (s : State) (v : Block) : (s.setBlock v).dptr = s.dptr := rfl
@[simp] theorem State.setBlock_dlen (s : State) (v : Block) : (s.setBlock v).dlen = s.dlen := rfl
@[simp] theorem State.setBlock_status (s : State) (v : Block) : (s.setBlock v).status = s.status := rfl
@[simp] theorem State.setBlock_dmem (s : State) (v : Block) : (s.setBlock v).dmem = s.dmem := rfl
@[simp] theorem State.setBlock_cfg (s : State) (v : Block) : (s.setBlock v).cfg = s.cfg := rfl
@[simp] theorem State.setBlock_host (s : State) (v : Block) : (s.setBlock v).host = s.host := rfl
@[simp] theorem State.setBlock_replies (s : State) (v : Block) : (s.setBlock v).replies = s.replies := rfl
@[simp] theorem State.setBlock_resets (s : State) (v : Block) : (s.setBlock v).resets = s.resets := rfl

/-! ### `State.setDmem` -/

@[simp] theorem State.setDmem_block (s : State) (m : Memory) : (s.setDmem m).block = s.block := rfl
@[simp] theorem State.setDmem_key (s : State) (m : Memory) : (s.setDmem m).key = s.key := rfl
@[simp] theorem State.setDmem_iv (s : State) (m : Memory) : (s.setDmem m).iv = s.iv := rfl
@[simp] theorem State.setDmem_res (s : State) (m : Memory) : (s.setDmem m).res = s.res := rfl
@[simp] theorem State.setDmem_sched (s : State) (m : Memory) : (s.setDmem m).sched = s.sched := rfl
@[simp] theorem State.setDmem_ksel (s : State) (m : Memory) : (s.setDmem m).ksel = s.ksel := rfl
@[simp] theorem State.setDmem_dptr (s : State) (m : Memory) : (s.setDmem m).dptr = s.dptr := rfl
@[simp] theorem State.setDmem_dlen (s : State) (m : Memory) : (s.setDmem m).dlen = s.dlen := rfl
@[simp] theorem State.setDmem_status (s : State) (m : Memory) : (s.setDmem m).status = s.status := rfl
@[simp] theorem State.setDmem_dmem (s : State) (m : Memory) : (s.setDmem m).dmem = m := rfl
@[simp] theorem State.setDmem_cfg (s : State) (m : Memory) : (s.setDmem m).cfg = s.cfg := rfl
@[simp] theorem State.setDmem_host (s : State) (m : Memory) : (s.setDmem m).host = s.host := rfl
@[simp] theorem State.setDmem_replies (s : State) (m : Memory) : (s.setDmem m).replies = s.replies := rfl
@[simp] theorem State.setDmem_resets (s : State) (m : Memory) : (s.setDmem m).resets = s.resets := rfl

/-! ### `State.setStatus` -/

@[simp] theorem State.setStatus_block (s : State) (st : Status) : (s.setStatus st).block = s.block := rfl
@[simp] theorem State.setStatus_key (s : State) (st : Status) : (s.setStatus st).key = s.key := rfl
@[simp] theorem State.setStatus_iv (s : State) (st : Status) : (s.setStatus st).iv = s.iv := rfl
@[simp] theorem State.setStatus_res (s : State) (st : Status) : (s.setStatus st).res = s.res := rfl
@[simp] theorem State.setStatus_sched (s : State) (st : Status) : (s.setStatus st).sched = s.sched := rfl
@[simp] theorem State.setStatus_ksel (s : State) (st : Status) : (s.setStatus st).ksel = s.ksel := rfl
@[simp] theorem State.setStatus_dptr (s : State) (st : Status) : (s.setStatus st).dptr = s.dptr := rfl
@[simp] theorem State.setStatus_dlen (s : State) (st : Status) : (s.setStatus st).dlen = s.dlen := rfl
@[simp] theorem State.setStatus_status (s : State) (st : Status) : (s.setStatus st).status = st := rfl
@[simp] theorem State.setStatus_dmem (s : State) (st : Status) : (s.setStatus st).dmem = s.dmem := rfl
@[simp] theorem State.setStatus_cfg (s : State) (st : Status) : (s.setStatus st).cfg = s.cfg := rfl
@[simp] theorem State.setStatus_host (s : State) (st : Status) : (s.setStatus st).host = s.host := rfl
@[simp] theorem State.setStatus_replies (s : State) (st : Status) : (s.setStatus st).replies = s.replies := rfl
@[simp] theorem State.setStatus_resets (s : State) (st : Status) : (s.setStatus st).resets = s.resets := rfl

/-! ### `State.loadSchedule` -/

@[simp] theorem State.loadSchedule_block (s : State) (ws : List Word) : (s.loadSchedule ws).block = s.block := by
  simp only [State.loadSchedule]
@[simp] theorem State.loadSchedule_key (s : State) (ws : List Word) : (s.loadSchedule ws).key = s.key := by
  simp only [State.loadSchedule]
@[simp] theorem State.loadSchedule_iv (s : State) (ws : List Word) : (s.loadSchedule ws).iv = s.iv := by
  simp only [State.loadSchedule]
@[simp] theorem State.loadSchedule_res (s : State) (ws : List Word) : (s.loadSchedule ws).res = s.res := by
  simp only [State.loadSchedule]
@[simp] theorem State.loadSchedule_sched (s : State) (ws : List Word) :
    (s.loadSchedule ws).sched = mergeSchedule ws s.sched := by
  simp only [State.loadSchedule]
@[simp] theorem State.loadSchedule_ksel (s : State) (ws : List Word) : (s.loadSchedule ws).ksel = s.ksel := by
  simp only [State.loadSchedule]
@[simp] theorem State.loadSchedule_dptr (s : State) (ws : List Word) : (s.loadSchedule ws).dptr = s.dptr := by
  simp only [State.loadSchedule]
@[simp] theorem State.loadSchedule_dlen (s : State) (ws : List Word) : (s.loadSchedule ws).dlen = s.dlen := by
  simp only [State.loadSchedule]
@[simp] theorem State.loadSchedule_status (s : State) (ws : List Word) :
    (s.loadSchedule ws).status = statusSchedValid true s.status := by
  simp only [State.loadSchedule]
@[simp] theorem State.loadSchedule_dmem (s : State) (ws : List Word) : (s.loadSchedule ws).dmem = s.dmem := by
  simp only [State.loadSchedule]
@[simp] theorem State.loadSchedule_cfg (s : State) (ws : List Word) : (s.loadSchedule ws).cfg = s.cfg := by
  simp only [State.loadSchedule]
@[simp] theorem State.loadSchedule_host (s : State) (ws : List Word) : (s.loadSchedule ws).host = s.host := by
  simp only [State.loadSchedule]
@[simp] theorem State.loadSchedule_replies (s : State) (ws : List Word) :
    (s.loadSchedule ws).replies = s.replies := by
  simp only [State.loadSchedule]
@[simp] theorem State.loadSchedule_resets (s : State) (ws : List Word) : (s.loadSchedule ws).resets = s.resets := by
  simp only [State.loadSchedule]

/-! ### `State.succeed` -/

@[simp] theorem State.succeed_block (s : State) : (s.succeed).block = s.block := rfl
@[simp] theorem State.succeed_key (s : State) : (s.succeed).key = s.key := rfl
@[simp] theorem State.succeed_iv (s : State) : (s.succeed).iv = s.iv := rfl
@[simp] theorem State.succeed_res (s : State) : (s.succeed).res = s.res := rfl
@[simp] theorem State.succeed_sched (s : State) : (s.succeed).sched = s.sched := rfl
@[simp] theorem State.succeed_ksel (s : State) : (s.succeed).ksel = s.ksel := rfl
@[simp] theorem State.succeed_dptr (s : State) : (s.succeed).dptr = s.dptr := rfl
@[simp] theorem State.succeed_dlen (s : State) : (s.succeed).dlen = s.dlen := rfl
@[simp] theorem State.succeed_status (s : State) : (s.succeed).status = statusSuccess s.status := rfl
@[simp] theorem State.succeed_dmem (s : State) : (s.succeed).dmem = s.dmem := rfl
@[simp] theorem State.succeed_cfg (s : State) : (s.succeed).cfg = s.cfg := rfl
@[simp] theorem State.succeed_host (s : State) : (s.succeed).host = s.host := rfl
@[simp] theorem State.succeed_replies (s : State) : (s.succeed).replies = s.replies := rfl
@[simp] theorem State.succeed_resets (s : State) : (s.succeed).resets = s.resets := rfl

/-! ### `State.raiseError` -/

@[simp] theorem State.raiseError_block (s : State) (c : Cause) : (s.raiseError c).block = s.block := rfl
@[simp] theorem State.raiseError_key (s : State) (c : Cause) : (s.raiseError c).key = s.key := rfl
@[simp] theorem State.raiseError_iv (s : State) (c : Cause) : (s.raiseError c).iv = s.iv := rfl
@[simp] theorem State.raiseError_res (s : State) (c : Cause) : (s.raiseError c).res = s.res := rfl
@[simp] theorem State.raiseError_sched (s : State) (c : Cause) : (s.raiseError c).sched = s.sched := rfl
@[simp] theorem State.raiseError_ksel (s : State) (c : Cause) : (s.raiseError c).ksel = s.ksel := rfl
@[simp] theorem State.raiseError_dptr (s : State) (c : Cause) : (s.raiseError c).dptr = s.dptr := rfl
@[simp] theorem State.raiseError_dlen (s : State) (c : Cause) : (s.raiseError c).dlen = s.dlen := rfl
@[simp] theorem State.raiseError_status (s : State) (c : Cause) :
    (s.raiseError c).status = statusError c s.status := rfl
@[simp] theorem State.raiseError_dmem (s : State) (c : Cause) : (s.raiseError c).dmem = s.dmem := rfl
@[simp] theorem State.raiseError_cfg (s : State) (c : Cause) : (s.raiseError c).cfg = s.cfg := rfl
@[simp] theorem State.raiseError_host (s : State) (c : Cause) : (s.raiseError c).host = s.host := rfl
@[simp] theorem State.raiseError_replies (s : State) (c : Cause) : (s.raiseError c).replies = s.replies := rfl
@[simp] theorem State.raiseError_resets (s : State) (c : Cause) : (s.raiseError c).resets = s.resets := rfl

/-! ### `State.raiseFatal` -/

@[simp] theorem State.raiseFatal_block (s : State) (c : Cause) : (s.raiseFatal c).block = s.block := rfl
@[simp] theorem State.raiseFatal_key (s : State) (c : Cause) : (s.raiseFatal c).key = s.key := rfl
@[simp] theorem State.raiseFatal_iv (s : State) (c : Cause) : (s.raiseFatal c).iv = s.iv := rfl
@[simp] theorem State.raiseFatal_res (s : State) (c : Cause) : (s.raiseFatal c).res = s.res := rfl
@[simp] theorem State.raiseFatal_sched (s : State) (c : Cause) : (s.raiseFatal c).sched = s.sched := rfl
@[simp] theorem State.raiseFatal_ksel (s : State) (c : Cause) : (s.raiseFatal c).ksel = s.ksel := rfl
@[simp] theorem State.raiseFatal_dptr (s : State) (c : Cause) : (s.raiseFatal c).dptr = s.dptr := rfl
@[simp] theorem State.raiseFatal_dlen (s : State) (c : Cause) : (s.raiseFatal c).dlen = s.dlen := rfl
@[simp] theorem State.raiseFatal_status (s : State) (c : Cause) :
    (s.raiseFatal c).status = statusFatal c s.status := rfl
@[simp] theorem State.raiseFatal_dmem (s : State) (c : Cause) : (s.raiseFatal c).dmem = s.dmem := rfl
@[simp] theorem State.raiseFatal_cfg (s : State) (c : Cause) : (s.raiseFatal c).cfg = s.cfg := rfl
@[simp] theorem State.raiseFatal_host (s : State) (c : Cause) : (s.raiseFatal c).host = s.host := rfl
@[simp] theorem State.raiseFatal_replies (s : State) (c : Cause) : (s.raiseFatal c).replies = s.replies := rfl
@[simp] theorem State.raiseFatal_resets (s : State) (c : Cause) : (s.raiseFatal c).resets = s.resets := rfl

/-! ### `State.dropSchedule` -/

@[simp] theorem State.dropSchedule_block (s : State) : (s.dropSchedule).block = s.block := rfl
@[simp] theorem State.dropSchedule_key (s : State) : (s.dropSchedule).key = s.key := rfl
@[simp] theorem State.dropSchedule_iv (s : State) : (s.dropSchedule).iv = s.iv := rfl
@[simp] theorem State.dropSchedule_res (s : State) : (s.dropSchedule).res = s.res := rfl
@[simp] theorem State.dropSchedule_sched (s : State) : (s.dropSchedule).sched = s.sched := rfl
@[simp] theorem State.dropSchedule_ksel (s : State) : (s.dropSchedule).ksel = s.ksel := rfl
@[simp] theorem State.dropSchedule_dptr (s : State) : (s.dropSchedule).dptr = s.dptr := rfl
@[simp] theorem State.dropSchedule_dlen (s : State) : (s.dropSchedule).dlen = s.dlen := rfl
@[simp] theorem State.dropSchedule_status (s : State) :
    (s.dropSchedule).status = statusSchedValid false s.status := rfl
@[simp] theorem State.dropSchedule_dmem (s : State) : (s.dropSchedule).dmem = s.dmem := rfl
@[simp] theorem State.dropSchedule_cfg (s : State) : (s.dropSchedule).cfg = s.cfg := rfl
@[simp] theorem State.dropSchedule_host (s : State) : (s.dropSchedule).host = s.host := rfl
@[simp] theorem State.dropSchedule_replies (s : State) : (s.dropSchedule).replies = s.replies := rfl
@[simp] theorem State.dropSchedule_resets (s : State) : (s.dropSchedule).resets = s.resets := rfl

/-! ### `State.transform` -/

@[simp] theorem State.transform_block (s : State) (f : Block → Block) : (s.transform f).block = f s.block := rfl
@[simp] theorem State.transform_key (s : State) (f : Block → Block) : (s.transform f).key = s.key := rfl
@[simp] theorem State.transform_iv (s : State) (f : Block → Block) : (s.transform f).iv = s.iv := rfl
@[simp] theorem State.transform_res (s : State) (f : Block → Block) : (s.transform f).res = s.res := rfl
@[simp] theorem State.transform_sched (s : State) (f : Block → Block) : (s.transform f).sched = s.sched := rfl
@[simp] theorem State.transform_ksel (s : State) (f : Block → Block) : (s.transform f).ksel = s.ksel := rfl
@[simp] theorem State.transform_dptr (s : State) (f : Block → Block) : (s.transform f).dptr = s.dptr := rfl
@[simp] theorem State.transform_dlen (s : State) (f : Block → Block) : (s.transform f).dlen = s.dlen := rfl
@[simp] theorem State.transform_status (s : State) (f : Block → Block) :
    (s.transform f).status = statusSuccess s.status := rfl
@[simp] theorem State.transform_dmem (s : State) (f : Block → Block) : (s.transform f).dmem = s.dmem := rfl
@[simp] theorem State.transform_cfg (s : State) (f : Block → Block) : (s.transform f).cfg = s.cfg := rfl
@[simp] theorem State.transform_host (s : State) (f : Block → Block) : (s.transform f).host = s.host := rfl
@[simp] theorem State.transform_replies (s : State) (f : Block → Block) : (s.transform f).replies = s.replies := rfl
@[simp] theorem State.transform_resets (s : State) (f : Block → Block) : (s.transform f).resets = s.resets := rfl

/-! ### `State.expandSchedule` -/

@[simp] theorem State.expandSchedule_block (s : State) : (s.expandSchedule).block = s.block := by
  simp only [State.expandSchedule, State.loadSchedule_block]
@[simp] theorem State.expandSchedule_key (s : State) : (s.expandSchedule).key = s.key := by
  simp only [State.expandSchedule, State.loadSchedule_key]
@[simp] theorem State.expandSchedule_iv (s : State) : (s.expandSchedule).iv = s.iv := by
  simp only [State.expandSchedule, State.loadSchedule_iv]
@[simp] theorem State.expandSchedule_res (s : State) : (s.expandSchedule).res = s.res := by
  simp only [State.expandSchedule, State.loadSchedule_res]
@[simp] theorem State.expandSchedule_sched (s : State) :
    (s.expandSchedule).sched = mergeSchedule (expandKey s.key (keyWords s.ksel) (schedWords s.ksel)) s.sched := by
  simp only [State.expandSchedule, State.loadSchedule_sched]
@[simp] theorem State.expandSchedule_ksel (s : State) : (s.expandSchedule).ksel = s.ksel := by
  simp only [State.expandSchedule, State.loadSchedule_ksel]
@[simp] theorem State.expandSchedule_dptr (s : State) : (s.expandSchedule).dptr = s.dptr := by
  simp only [State.expandSchedule, State.loadSchedule_dptr]
@[simp] theorem State.expandSchedule_dlen (s : State) : (s.expandSchedule).dlen = s.dlen := by
  simp only [State.expandSchedule, State.loadSchedule_dlen]
@[simp] theorem State.expandSchedule_status (s : State) :
    (s.expandSchedule).status = statusSchedValid true s.status := rfl
@[simp] theorem State.expandSchedule_dmem (s : State) : (s.expandSchedule).dmem = s.dmem := by
  simp only [State.expandSchedule, State.loadSchedule_dmem]
@[simp] theorem State.expandSchedule_cfg (s : State) : (s.expandSchedule).cfg = s.cfg := by
  simp only [State.expandSchedule, State.loadSchedule_cfg]
@[simp] theorem State.expandSchedule_host (s : State) : (s.expandSchedule).host = s.host := by
  simp only [State.expandSchedule, State.loadSchedule_host]
@[simp] theorem State.expandSchedule_replies (s : State) : (s.expandSchedule).replies = s.replies := by
  simp only [State.expandSchedule, State.loadSchedule_replies]
@[simp] theorem State.expandSchedule_resets (s : State) : (s.expandSchedule).resets = s.resets := by
  simp only [State.expandSchedule, State.loadSchedule_resets]

/-! ### `State.reply` -/

@[simp] theorem State.reply_block (s : State) (r : Reply) : (s.reply r).block = s.block := rfl
@[simp] theorem State.reply_key (s : State) (r : Reply) : (s.reply r).key = s.key := rfl
@[simp] theorem State.reply_iv (s : State) (r : Reply) : (s.reply r).iv = s.iv := rfl
@[simp] theorem State.reply_res (s : State) (r : Reply) : (s.reply r).res = s.res := rfl
@[simp] theorem State.reply_sched (s : State) (r : Reply) : (s.reply r).sched = s.sched := rfl
@[simp] theorem State.reply_ksel (s : State) (r : Reply) : (s.reply r).ksel = s.ksel := rfl
@[simp] theorem State.reply_dptr (s : State) (r : Reply) : (s.reply r).dptr = s.dptr := rfl
@[simp] theorem State.reply_dlen (s : State) (r : Reply) : (s.reply r).dlen = s.dlen := rfl
@[simp] theorem State.reply_status (s : State) (r : Reply) : (s.reply r).status = s.status := rfl
@[simp] theorem State.reply_dmem (s : State) (r : Reply) : (s.reply r).dmem = s.dmem := rfl
@[simp] theorem State.reply_cfg (s : State) (r : Reply) : (s.reply r).cfg = s.cfg := rfl
@[simp] theorem State.reply_host (s : State) (r : Reply) : (s.reply r).host = s.host := rfl
@[simp] theorem State.reply_replies (s : State) (r : Reply) : (s.reply r).replies = s.replies ++ [r] := rfl
@[simp] theorem State.reply_resets (s : State) (r : Reply) : (s.reply r).resets = s.resets := rfl

end Sys2Proof.Machine
end

