-- ==== Sys2Proof/Laws/Modes.lean ====
section
/-!
SUPPORT. The mode layer: when the checks pass, and what the loop over the blocks does to DMEM and to the chaining value.
-/

namespace Sys2Proof.Machine

/-- The checks pass exactly on a buffer of a positive multiple of 16 bytes inside DMEM (R150). -/
theorem modeCheck_eq_none {s : State} : modeCheck s = none ↔ s.bufferOk := by
  unfold modeCheck State.bufferOk
  split
  · simp_all
  · split
    · simp_all
    · split <;> simp_all

/-- A failed check is the whole outcome. -/
theorem runMode_failed {f : Vector Word 60 → Nat → BlockStep} {s : State} {c : Cause} (h : modeCheck s = some c) :
    runMode f s = .next (s.raiseError c) := by
  simp only [runMode, h]

/-- The outcome on a buffer that passes the checks. -/
theorem runMode_passed {f : Vector Word 60 → Nat → BlockStep} {s : State} (h : s.bufferOk) :
    runMode f s = .next (s.expandSchedule.setDmem (modeLoop (f s.expandSchedule.sched (rounds s.ksel)) s.dptr.toNat
      (s.dlen.toNat / 16) (s.dmem, s.iv)).1).succeed := by
  simp only [runMode, modeCheck_eq_none.mpr h]

/-- A mode command is the shared operation with its own block step. -/
theorem exec_mode {i : Instr} (h : isMode i = true) (s : State) : ∃ f, exec i s = runMode f s := by
  cases i <;> first | (cases h; done) | exact ⟨_, rfl⟩

/-- The loop keeps the canonical form of DMEM. -/
theorem wf_modeLoop (f : BlockStep) (base n : Nat) (p : Memory × Block) (h : p.1.wf) : (modeLoop f base n p).1.wf := by
  induction n with
  | zero => exact h
  | succ n ih => exact Memory.wf_writeBlock ih _ _

/-- The loop lists nothing new outside its blocks. -/
theorem mem_modeLoop {f : BlockStep} {base n : Nat} {p : Memory × Block} {c : Host.Cell}
    (h : c ∈ (modeLoop f base n p).1) : (base ≤ c.1 ∧ c.1 < base + 16 * n) ∨ c ∈ p.1 := by
  induction n with
  | zero => exact .inr h
  | succ n ih =>
    rcases Memory.mem_writeBlock h with h | h
    · simp only [blockAddr] at h
      exact .inl (by omega)
    · rcases ih h with h | h
      · exact .inl (by omega)
      · exact .inr h

/-- The loop leaves every byte outside its blocks alone. -/
theorem read_modeLoop_outside (f : BlockStep) (base n : Nat) (p : Memory × Block) (a : Nat)
    (h : a < base ∨ base + 16 * n ≤ a) : (modeLoop f base n p).1.read a = p.1.read a := by
  induction n with
  | zero => rfl
  | succ n ih =>
    simp only [modeLoop]
    rw [Memory.read_writeBlock_outside _ _ _ _ (by simp only [blockAddr]; omega), ih (by omega)]

/-- A block the loop has not reached is as it was. -/
theorem readBlock_modeLoop_later (f : BlockStep) (base n k : Nat) (p : Memory × Block) (h : n ≤ k) :
    (modeLoop f base n p).1.readBlock (blockAddr base k) = p.1.readBlock (blockAddr base k) := by
  apply Vector.ext
  intro j hj
  simp only [Memory.getElem_readBlock]
  exact read_modeLoop_outside f base n p _ (by simp only [blockAddr]; omega)

/-- A block the loop has passed holds what the mode made of the block that was there. -/
theorem readBlock_modeLoop_done (f : BlockStep) (base n k : Nat) (p : Memory × Block) (h : k < n) :
    (modeLoop f base n p).1.readBlock (blockAddr base k) =
      (f (modeLoop f base k p).2 (p.1.readBlock (blockAddr base k))).1 := by
  induction n with
  | zero => omega
  | succ n ih =>
    simp only [modeLoop]
    by_cases hk : k = n
    · subst hk
      rw [Memory.readBlock_writeBlock_same, readBlock_modeLoop_later f base k k p (Nat.le_refl k)]
    · rw [Memory.readBlock_writeBlock_other _ _ _ _ (by simp only [blockAddr]; omega), ih (by omega)]

/-- The chaining value after one more block. -/
theorem chain_modeLoop_succ (f : BlockStep) (base n : Nat) (p : Memory × Block) :
    (modeLoop f base (n + 1) p).2 = (f (modeLoop f base n p).2 (p.1.readBlock (blockAddr base n))).2 := by
  simp only [modeLoop, readBlock_modeLoop_later f base n n p (Nat.le_refl n)]

end Sys2Proof.Machine
end

