-- ==== Sys2Proof/Laws/PerInstr.lean ====
section
/-!
SUPPORT. The family EncodesTableRow: the word of a command matches the row of the opcode table (30_encoding.md R73) that
bears its mnemonic. One lemma per constructor.
-/

/-- The encoded word agrees with the command's row of R73 on every bit of the row's mask. -/
def Sys2Proof.Laws.EncodesTableRow.Statement (i : Sys2Proof.Instr) : Prop :=
  ∃ r ∈ Sys2Proof.opcodeTable, r.mnemonic = i.mnemonic ∧ Sys2Proof.encode i &&& r.mask = r.bits

namespace Sys2Proof.Laws.EncodesTableRow

theorem mask_op (op a b : Byte) : commandWord op a b &&& 0xFF0000FF = op.setWidth 32 := by
  apply BitVec.eq_of_getLsbD_eq
  intro i hi
  interval_cases i <;> simp [commandWord]

theorem mask_op_a (op a : Byte) : commandWord op a 0 &&& 0xFFFF00FF = op.setWidth 32 := by
  apply BitVec.eq_of_getLsbD_eq
  intro i hi
  interval_cases i <;> simp [commandWord]

theorem nop : Statement .nop := by unfold Statement; decide
theorem gfmul (a b : Byte) : Statement (.gfmul a b) := ⟨⟨"GFMUL", 0xFF0000FF, 1⟩, by decide, rfl, mask_op 1 a b⟩
theorem gfinv (a : Byte) : Statement (.gfinv a) := ⟨⟨"GFINV", 0xFFFF00FF, 2⟩, by decide, rfl, mask_op_a 2 a⟩
theorem sbox (a : Byte) : Statement (.sbox a) := ⟨⟨"SBOX", 0xFFFF00FF, 3⟩, by decide, rfl, mask_op_a 3 a⟩
theorem isbox (a : Byte) : Statement (.isbox a) := ⟨⟨"ISBOX", 0xFFFF00FF, 4⟩, by decide, rfl, mask_op_a 4 a⟩
theorem subbytes : Statement .subbytes := by unfold Statement; decide
theorem invsubbytes : Statement .invsubbytes := by unfold Statement; decide
theorem shiftrows : Statement .shiftrows := by unfold Statement; decide
theorem invshiftrows : Statement .invshiftrows := by unfold Statement; decide
theorem mixcolumns : Statement .mixcolumns := by unfold Statement; decide
theorem invmixcolumns : Statement .invmixcolumns := by unfold Statement; decide
theorem addroundkey (n : Nat) : Statement (.addroundkey n) :=
  ⟨⟨"ADDROUNDKEY", 0xFFFF00FF, 0x16⟩, by decide, rfl, mask_op_a 0x16 (BitVec.ofNat 8 n)⟩
theorem expandkey : Statement .expandkey := by unfold Statement; decide
theorem encblk : Statement .encblk := by unfold Statement; decide
theorem decblk : Statement .decblk := by unfold Statement; decide
theorem ecbenc : Statement .ecbenc := by unfold Statement; decide
theorem ecbdec : Statement .ecbdec := by unfold Statement; decide
theorem cbcenc : Statement .cbcenc := by unfold Statement; decide
theorem cbcdec : Statement .cbcdec := by unfold Statement; decide

end Sys2Proof.Laws.EncodesTableRow
end

