-- ==== Sys2Proof/Laws/Step.lean ====
section
/-!
SUPPORT. What a write to CMD and a step can be, case by case.
-/

namespace Sys2Proof.Machine

/-- A write to offset 0x000 runs the word as a command (R172). -/
theorem hostRegWrite_cmd (w : Word) (s : State) : hostRegWrite 0x000 w s = runCommand w s := rfl

theorem runCommand_fatal {s : State} (h : s.status.fatal = true) (w : Word) : runCommand w s = .next s := by
  simp [runCommand, h]

theorem runCommand_illegal {s : State} (h : s.status.fatal = false) {w : Word} {e : DecodeError}
    (hw : decode w = .error e) : runCommand w s = .next (s.raiseError .illegalCmd) := by
  simp [runCommand, h, hw]

theorem runCommand_decoded {s : State} (h : s.status.fatal = false) {w : Word} {i : Instr} (hw : decode w = .ok i) :
    runCommand w s = exec i s := by
  simp [runCommand, h, hw]

/-- A word is illegal or decodes. -/
theorem decode_cases (w : Word) : (∃ e, decode w = .error e) ∨ ∃ i, decode w = .ok i := by
  cases decode w with
  | error e => exact .inl ⟨e, rfl⟩
  | ok i => exact .inr ⟨i, rfl⟩

/-- What running a word can be (R70): ignored, an illegal word, or a decoded command. -/
theorem runCommand_cases {w : Word} {s t : State} (h : runCommand w s = .next t) :
    (s.status.fatal = true ∧ t = s) ∨ (s.status.fatal = false ∧ t = s.raiseError .illegalCmd) ∨
      (s.status.fatal = false ∧ ∃ i, decode w = .ok i ∧ exec i s = .next t) := by
  unfold runCommand at h
  split at h
  · cases h
    exact .inl ⟨by assumption, rfl⟩
  · rename_i hf
    have hf : s.status.fatal = false := by simpa using hf
    split at h
    · cases h
      exact .inr (.inl ⟨hf, rfl⟩)
    · exact .inr (.inr ⟨hf, _, by assumption, h⟩)

theorem step_idle {s : State} (h : s.host = []) : step s = .next s := by
  simp [step, h]

theorem step_pending {s : State} {op : HostOp} {rest : List HostOp} (h : s.host = op :: rest) :
    step s = hostOp op { s with host := rest } := by
  simp [step, h]

/-- What an answered host operation can be (R171). -/
theorem hostOp_cases {op : HostOp} {s t : State} (h : hostOp op s = .next t) :
    (∃ off r, op = .regRead off ∧ regAt off = some r ∧ t = s.reply (.word (s.readReg r))) ∨
    (∃ off v, op = .regWrite off v ∧ regAt off = some .cmd ∧ runCommand v s = .next t) ∨
    (∃ off v r, op = .regWrite off v ∧ regAt off = some r ∧ r ≠ .cmd ∧ t = s.storeReg r v) ∨
    (∃ addr, op = .dmemRead addr ∧ addr < s.cfg.dmemBytes ∧ t = s.reply (.byte (s.dmem.read addr))) ∨
    (∃ addr v, op = .dmemWrite addr v ∧ addr < s.cfg.dmemBytes ∧ t = s.setDmem (s.dmem.write addr v)) ∨
    (op = .reset ∧ t = s.resetCore) := by
  cases op with
  | regRead off =>
    simp only [hostOp, hostRegRead] at h
    split at h
    · cases h
    · cases h
      exact .inl ⟨off, _, rfl, by assumption, rfl⟩
  | regWrite off v =>
    simp only [hostOp, hostRegWrite] at h
    split at h
    · cases h
    · exact .inr (.inl ⟨off, v, rfl, by assumption, h⟩)
    · rename_i r hne hr
      cases h
      exact .inr (.inr (.inl ⟨off, v, r, rfl, hr, hne, rfl⟩))
  | dmemRead addr =>
    simp only [hostOp, hostDmemRead] at h
    split at h
    · cases h
      exact .inr (.inr (.inr (.inl ⟨addr, rfl, by assumption, rfl⟩)))
    · cases h
  | dmemWrite addr v =>
    simp only [hostOp, hostDmemWrite] at h
    split at h
    · cases h
      exact .inr (.inr (.inr (.inr (.inl ⟨addr, v, rfl, by assumption, rfl⟩))))
    · cases h
  | reset =>
    simp only [hostOp] at h
    cases h
    exact .inr (.inr (.inr (.inr (.inr ⟨rfl, rfl⟩))))

end Sys2Proof.Machine
end

