-- ==== Sys2Proof/Tests/Slice0.lean ====
section
/-!
SUPPORT. The model's own tests: well-formedness, decoding of words written out from 30_encoding.md R73, and one step of
each command on a small state. Expected values are those the spec prints (rule examples, 95_test_vectors.md,
96_key_schedule_vectors.md).
-/

set_option Elab.async false

namespace Sys2Proof.Machine.Tests

/-! ### Helpers -/

/-- The schedule of `K16` under KSEL = 128, as 96_key_schedule_vectors.md T9 prints it (rounds 0 to 5). -/
def t9Low : List Word :=
  [ 0x03020100, 0x07060504, 0x0b0a0908, 0x0f0e0d0c,
    0xfd74aad6, 0xfa72afd2, 0xf178a6da, 0xfe76abd6,
    0x0bcf92b6, 0xf1bd3d64, 0x00c59bbe, 0xfeb33068,
    0x4e74ffb6, 0xbfc9c2d2, 0xbf0c596c, 0x41bf6904,
    0xbcf7f747, 0x033e3595, 0xbc326cf9, 0xfd8d05fd,
    0xe8a3aa3c, 0xeb9d9fa9, 0x57aff350, 0xaa22f6ad ]

/-- The same, rounds 6 to 10. -/
def t9High : List Word :=
  [ 0x7d0f395e, 0x9692a6f7, 0xc13d55a7, 0x6b1fa30a,
    0x1a70f914, 0x8ce25fe3, 0x4ddf0a44, 0x26c0a94e,
    0x35874347, 0xb9651ca4, 0xf4ba16e0, 0xd27abfae,
    0xd1329954, 0x685785f0, 0x9ced9310, 0x4e972cbe,
    0x7f1d1113, 0x174a94e3, 0x8ba707f3, 0xc5302b4d ]

/-- After reset, with `K16`, KSEL = 128 and S = `B`. -/
def keyed : State := { State.reset with key := countingKey, ksel := 128, block := exampleBlock }

/-- `keyed` with the schedule T9 in W and SCHED_VALID = 1. -/
def expanded : State := keyed.loadSchedule (t9Low ++ t9High)

/-- `keyed` with the bytes of two blocks in DMEM at `addr`, DPTR and DLEN naming them, and an IV. -/
def buffered (addr : Nat) (x y iv : Block) : State :=
  { keyed with
    dmem := (Memory.writeBlock [] addr x).writeBlock (addr + 16) y
    dptr := BitVec.ofNat 32 addr, dlen := 32, iv := iv }

/-- The result is a next state with property `p`. -/
def gives (r : Result) (p : State → Bool) : Bool :=
  match r with
  | .next t => p t
  | .fault _ => false
  | .refused _ => false

/-! ### Well-formedness -/

/-- A round number that does not fit its field is refused (R72). -/
theorem test_wellFormed_refuses_wide_round : (Instr.addroundkey 256).wellFormed = false := by decide

theorem test_wellFormed_accepts_byte_round : (Instr.addroundkey 255).wellFormed = true := by decide

/-! ### Decoding: every command's word, from R73 and T19 -/

theorem test_decode_bytes :
    [0x00000000, 0x00835701, 0x00005302, 0x0000ff03, 0x0000ff04].map decode =
      [.ok .nop, .ok (.gfmul 0x57 0x83), .ok (.gfinv 0x53), .ok (.sbox 0xff), .ok (.isbox 0xff)] := by decide +kernel

theorem test_decode_transforms :
    [0x00000010, 0x00000011, 0x00000012, 0x00000013, 0x00000014, 0x00000015, 0x00000e16].map decode =
      [.ok .subbytes, .ok .invsubbytes, .ok .shiftrows, .ok .invshiftrows, .ok .mixcolumns, .ok .invmixcolumns,
        .ok (.addroundkey 14)] := by decide +kernel

theorem test_decode_ciphers :
    [0x00000020, 0x00000030, 0x00000031, 0x00000040, 0x00000041, 0x00000042, 0x00000043].map decode =
      [.ok .expandkey, .ok .encblk, .ok .decblk, .ok .ecbenc, .ok .ecbdec, .ok .cbcenc, .ok .cbcdec] := by
  decide +kernel

/-- Illegal words of R74 and T19. -/
theorem test_decode_illegal :
    [0x00000005, 0x01000000, 0x01835701, 0x00000130, 0x00010002, 0x00010016, 0xffffffff].map decode =
      [.error .unassignedOpcode, .error .topByteNotZero, .error .topByteNotZero, .error .unusedANotZero,
        .error .unusedBNotZero, .error .unusedBNotZero, .error .topByteNotZero] := by decide +kernel

/-- The encoder gives the words of R73's examples. -/
theorem test_encode_examples :
    [Instr.gfmul 0x57 0x83, .sbox 0x53, .addroundkey 10, .encblk].map encode =
      [0x00835701, 0x00005303, 0x00000A16, 0x00000030] := by decide +kernel

/-! ### Commands -/

/-- R170: NOP after a failed ECBENC, STATUS = 0x00000021. -/
theorem test_nop_clears_error :
    gives (exec .nop (keyed.raiseError .lenZero)) (fun t => statusWord t.status == 0) = true := by decide +kernel

/-- R94, T6. -/
theorem test_gfmul : gives (exec (.gfmul 0x57 0x83) keyed) (fun t => t.res == 0xC1) = true := by decide +kernel

/-- T6: the operands are not swapped or ignored. -/
theorem test_gfmul_reduces : gives (exec (.gfmul 0x02 0x87) keyed) (fun t => t.res == 0x15) = true := by
  decide +kernel

/-- R95. -/
theorem test_gfinv : gives (exec (.gfinv 0x53) keyed) (fun t => t.res == 0xCA) = true := by decide +kernel

/-- R95: `GFINV 0` is no error. -/
theorem test_gfinv_zero :
    gives (exec (.gfinv 0) { keyed with res := 1 }) (fun t => t.res == 0 && !t.status.err) = true := by decide +kernel

/-- R102. -/
theorem test_sbox : gives (exec (.sbox 0x53) keyed) (fun t => t.res == 0xED) = true := by decide +kernel

/-- R103. -/
theorem test_isbox : gives (exec (.isbox 0xED) keyed) (fun t => t.res == 0x53) = true := by decide +kernel

/-- R112. -/
theorem test_subbytes :
    gives (exec .subbytes keyed) (fun t => t.block == blockOfHex 0x638293c31bfc33f5c4eeacea4bc12816) = true := by
  decide +kernel

/-- R113. -/
theorem test_invsubbytes :
    gives (exec .invsubbytes keyed) (fun t => t.block == blockOfHex 0x52e3946686edd30297f962fe27c9997d) = true := by
  decide +kernel

/-- R115. -/
theorem test_shiftrows :
    gives (exec .shiftrows keyed) (fun t => t.block == blockOfHex 0x0055aaff4499ee3388dd2277cc1166bb) = true := by
  decide +kernel

/-- R116. -/
theorem test_invshiftrows :
    gives (exec .invshiftrows keyed) (fun t => t.block == blockOfHex 0x00ddaa774411eebb885522ffcc996633) = true := by
  decide +kernel

/-- R118. -/
theorem test_mixcolumns :
    gives (exec .mixcolumns keyed) (fun t => t.block == blockOfHex 0x2277005566334411aaff88ddeebbcc99) = true := by
  decide +kernel

/-- T7: four columns of their own. -/
theorem test_mixcolumns_columns :
    gives (exec .mixcolumns { keyed with block := blockOfHex 0xdb135345f20a225c01010101d4d4d4d5 })
      (fun t => t.block == blockOfHex 0x8e4da1bc9fdc589d01010101d5d5d7d6) = true := by decide +kernel

/-- R119. -/
theorem test_invmixcolumns :
    gives (exec .invmixcolumns keyed) (fun t => t.block == blockOfHex 0xaaff88ddeebbcc992277005566334411) = true := by
  decide +kernel

/-- R122: round key 10 of T9. -/
theorem test_addroundkey :
    gives (exec (.addroundkey 10) expanded) (fun t => t.block == blockOfHex 0x13003f4ca7c12c607b9e0d3081f6de3a) = true := by
  decide +kernel

/-- R122: round 11 of AES-128 is fatal, STATUS = 0x00000067, S unchanged. -/
theorem test_addroundkey_fatal :
    gives (exec (.addroundkey 11) expanded) (fun t => statusWord t.status == 0x67 && t.block == exampleBlock) = true := by
  decide +kernel

/-- R134, T9: all 44 words, and W[44] keeps its value. -/
theorem test_expandkey :
    gives (exec .expandkey keyed)
      (fun t => t.sched.toList.take 45 == t9Low ++ t9High ++ [0] && statusWord t.status == 2) = true := by
  decide +kernel

/-- T11: KSEL = 129 selects AES-256; the last word of the schedule. -/
theorem test_expandkey_fallback :
    gives (exec .expandkey { keyed with ksel := 129 }) (fun t => t.sched[59] == 0x36de686d) = true := by decide +kernel

/-- R142: the known answer of the source, T1. -/
theorem test_encblk :
    gives (exec .encblk expanded) (fun t => t.block == blockOfHex 0x69c4e0d86a7b0430d8cdb78070b4c55a) = true := by
  decide +kernel

/-- R142: without a schedule, STATUS = 0x00000051 (T18). -/
theorem test_encblk_no_schedule :
    gives (exec .encblk keyed) (fun t => statusWord t.status == 0x51 && t.block == exampleBlock) = true := by decide +kernel

/-- R143. -/
theorem test_decblk :
    gives (exec .decblk expanded) (fun t => t.block == blockOfHex 0x762a5ab50929189cefdb99434790aad8) = true := by
  decide +kernel

/-- T16: two equal blocks, at an unaligned start. -/
theorem test_ecbenc :
    gives (exec .ecbenc (buffered 35 exampleBlock exampleBlock exampleBlock))
      (fun t => t.dmem.readBlock 51 == blockOfHex 0x69c4e0d86a7b0430d8cdb78070b4c55a) = true := by decide +kernel

/-- T16, last line, on two such blocks at an unaligned start. -/
theorem test_ecbdec :
    gives (exec .ecbdec (buffered 35 exampleBlock exampleBlock exampleBlock))
      (fun t => t.dmem.readBlock 51 == blockOfHex 0x762a5ab50929189cefdb99434790aad8) = true := by decide +kernel

/-- T17: the second ciphertext block of the chain. -/
theorem test_cbcenc :
    gives (exec .cbcenc (buffered 0 exampleBlock exampleBlock (blockOfHex 0x0f0e0d0c0b0a09080706050403020100)))
      (fun t => t.dmem.readBlock 16 == blockOfHex 0xab128cff7d5afa25b6a07d9766c6b7c4) = true := by decide +kernel

/-- T17: decryption in place, with the first ciphertext block kept for the second. -/
theorem test_cbcdec :
    gives (exec .cbcdec (buffered 0 exampleBlock (blockOfHex 0) (blockOfHex 0xa0a1a2a3a4a5a6a7a8a9aaabacadaeaf)))
      (fun t => t.dmem.readBlock 0 == blockOfHex 0xd68bf816ad8cbe3b477233e8eb3d0477 &&
        t.dmem.readBlock 16 == blockOfHex 0x7b0c0b9228adaadc0c69121e5439c159) = true := by decide +kernel

/-! ### Witnesses: for each statement of Certificates/Slice0/Obligations.lean that has hypotheses, a state and operands
that meet them together, at the edges of their ranges -/

/-- `s` with one pending host operation. -/
def pending (s : State) (op : HostOp) : State := { s with host := [op] }

/-- The state of R186: `expanded` after ADDROUNDKEY 11. -/
def fatalState : State := expanded.raiseFatal .roundRange

/-- AES-256 with a valid schedule flag. -/
def wide : State := { keyed with ksel := 256, status := statusSchedValid true Status.reset }

/-- A buffer of two blocks that ends at the last byte of DMEM (224 + 32 = 256). -/
def topBuffer : State := buffered 224 exampleBlock (blockOfHex 0) exampleBlock

/-- A buffer of three blocks, the first one `x`. -/
def threeBlocks (x : Block) : State :=
  { buffered 0 x exampleBlock exampleBlock with
    dmem := ((Memory.writeBlock [] 0 x).writeBlock 16 exampleBlock).writeBlock 32 (blockOfHex 1), dlen := 48 }

/-- `B` with its first byte changed (0x00 to 0x80). -/
def corruptedBlock : Block := blockOfHex 0x80112233445566778899aabbccddeeff

theorem test_witness_DecodeEncodeRoundTrip :
    (Instr.addroundkey 255).wellFormed = true ∧ (Instr.gfmul 0xff 0xff).wellFormed = true ∧
      Instr.nop.wellFormed = true := by decide

theorem test_witness_EncodeDecodeRoundTrip :
    decode 0x00ffff01 = .ok (.gfmul 0xff 0xff) ∧ decode 0x0000ff16 = .ok (.addroundkey 255) := by decide +kernel

theorem test_witness_DecodeMatchesOpcodeTable :
    decode 0x0000ff16 = .ok (.addroundkey 255) ∧ (⟨"ADDROUNDKEY", 0xFFFF00FF, 0x00000016⟩ : OpcodeRow) ∈ opcodeTable ∧
      0x0000ff16#32 &&& 0xFFFF00FF#32 = 0x00000016#32 := by decide +kernel

/-- One illegal word for each case of R74, in a state with FATAL = 0. -/
theorem test_witness_IllegalWordsExactly :
    [0x00000005, 0x01000000, 0x00000130, 0x00010002].map decode =
      [.error .unassignedOpcode, .error .topByteNotZero, .error .unusedANotZero, .error .unusedBNotZero] ∧
      expanded.status.fatal = false := by decide +kernel

theorem test_witness_StepRunsDecodedCommand :
    (pending keyed (.regWrite 0x000 0x00000010)).host = .regWrite 0x000 0x00000010 :: [] ∧
      (pending keyed (.regWrite 0x000 0x00000010)).status.fatal = false ∧
      decode 0x00000010 = .ok .subbytes := by decide +kernel

theorem test_witness_StepTakesOldestOperation :
    keyed.host = [] ∧ (pending keyed .reset).host = .reset :: [] := by decide +kernel

theorem test_witness_CommandSucceedsOrChangesNothing :
    fatalState.status.fatal = true ∧ keyed.status.fatal = false := by decide +kernel

/-- The schedule of T9 is that of `K16`. -/
theorem test_witness_ScheduleCurrentKept :
    expanded.status.schedValid = true ∧ expanded.scheduleCurrent ∧
      gives (step (pending expanded (.regWrite 0x000 0x00000010))) (fun t => t.status.schedValid) = true := by
  decide +kernel

theorem test_witness_StatusConsistentKept :
    (pending fatalState (.regWrite 0x000 0x00000010)).statusConsistent ∧
      gives (step (pending fatalState (.regWrite 0x000 0x00000010))) (fun t => t.status.fatal) = true ∧
      (pending expanded (.regWrite 0x000 0x00000b16)).statusConsistent ∧
      gives (step (pending expanded (.regWrite 0x000 0x00000b16))) (fun t => t.status.fatal) = true := by decide +kernel

theorem test_witness_MemoryCanonicalKept :
    topBuffer.memoryOk ∧ topBuffer.dmem ≠ [] ∧
      gives (step (pending topBuffer (.dmemWrite 255 0))) (fun t => t.dmem != topBuffer.dmem || t.dmem != []) = true := by
  decide +kernel

/-- One DMEM built in two orders of writing. -/
theorem test_witness_MemoryCanonicalUnique :
    Memory.wf [(3, 1), (7, 2)] ∧ Memory.write [(7, 2)] 3 1 = [(3, 1), (7, 2)] ∧
      Memory.write [(3, 1)] 7 2 = [(3, 1), (7, 2)] := by decide +kernel

theorem test_witness_StepTakesOneOperation :
    gives (step (pending keyed (.regRead 0x020))) (fun t => t.replies == [.word 0x03020100]) = true := by decide +kernel

theorem test_witness_FatalStaysUntilReset :
    fatalState.faulted ∧ HostOp.regWrite 0x008 0 ≠ .reset ∧
      gives (hostOp (.regWrite 0x008 0) fatalState) (fun t => t.ksel == 0) = true := by decide +kernel

/-- NOP is in every class of the frame. -/
theorem test_witness_CommandFrame :
    gives (exec .nop keyed) (fun _ => true) = true ∧ writesRes .nop = false ∧ writesBlock .nop = false ∧
      expands .nop = false ∧ isMode .nop = false := by decide +kernel

/-- The bytes just below and just above a buffer, and the word of W just above the schedule. -/
theorem test_witness_ModeFrame :
    isMode .ecbenc = true ∧ (buffered 35 exampleBlock exampleBlock exampleBlock).outsideBuffer 34 ∧
      (buffered 35 exampleBlock exampleBlock exampleBlock).outsideBuffer 67 ∧ ¬ (buffered 35 exampleBlock exampleBlock exampleBlock).outsideBuffer 66 ∧
      schedWords keyed.ksel ≤ (44 : Fin 60).val := by decide +kernel

theorem test_witness_NopResult :
    fatalState.status.fatal = true ∧ statusWord (keyed.raiseError .lenZero).status = 0x00000021 := by decide +kernel

theorem test_witness_FieldCommandResults :
    writesRes .encblk = false ∧ gives (exec .encblk expanded) (fun _ => true) = true ∧ fieldZ 0x01835701 ≠ 0 ∧
      fieldOp 0x00010002 = 0x02 ∧ fieldB 0x00010002 ≠ 0 ∧
      fatalState.status.fatal = true := by decide +kernel

theorem test_witness_SboxCommandResults :
    fieldOp 0x00010003 = 0x03 ∧ fieldB 0x00010003 ≠ 0 ∧ fieldOp 0xff000004 = 0x04 ∧ fieldZ 0xff000004 ≠ 0 ∧
      fatalState.status.fatal = true := by decide +kernel

theorem test_witness_SubBytesResults :
    fatalState.status.fatal = true ∧ keyed.block = exampleBlock := by decide +kernel

/-- The last column of S, and a block of each example list. -/
theorem test_witness_MixColumnsResults :
    keyed.block[4 * (3 : Fin 4).val] = 0xcc ∧ keyed.block[4 * (3 : Fin 4).val + 1] = 0xdd ∧
      keyed.block[4 * (3 : Fin 4).val + 2] = 0xee ∧ keyed.block[4 * (3 : Fin 4).val + 3] = 0xff ∧
      (exampleBlock, blockOfHex 0x2277005566334411aaff88ddeebbcc99) ∈
        [(exampleBlock, blockOfHex 0x2277005566334411aaff88ddeebbcc99)] := by decide +kernel

/-- The first and the last round of AES-128, the last of AES-256. -/
theorem test_witness_AddRoundKeyResults_completes :
    expanded.status.schedValid = true ∧ 0 ≤ rounds expanded.ksel ∧ 10 ≤ rounds expanded.ksel ∧
      expanded.sched[4 * 10 + (3 : Fin 4).val]? = some 0xc5302b4d ∧
      wide.status.schedValid = true ∧ 14 ≤ rounds wide.ksel ∧ wide.sched[4 * 14 + (3 : Fin 4).val]? = some 0 := by
  decide +kernel

/-- The key, the block and the size of R122's examples, and a word with `b` set. -/
theorem test_witness_AddRoundKeyResults_examples :
    keyed.ksel = 128 ∧ (∀ i : Fin 16, keyed.key[i.val] = BitVec.ofNat 8 i.val) ∧ keyed.block = exampleBlock ∧
      gives (exec .expandkey keyed) (fun _ => true) = true ∧ fieldOp 0x00010016 = 0x16 ∧ fieldB 0x00010016 ≠ 0 ∧
      (200 : Word) ≠ 128 ∧ (200 : Word) ≠ 192 := by decide +kernel

/-- The first round number out of range, for AES-128 and AES-256. -/
theorem test_witness_AddRoundKeyResults_fails :
    keyed.status.schedValid = false ∧ expanded.status.schedValid = true ∧ rounds expanded.ksel < 11 ∧
      wide.status.schedValid = true ∧ rounds wide.ksel < 15 := by decide +kernel

theorem test_witness_BlockCipherResults :
    expanded.status.schedValid = true ∧ keyed.status.schedValid = false := by decide +kernel

/-- DLEN = 0, DLEN = 20, one byte past the end of DMEM, and a sum above 2^32. -/
theorem test_witness_ModeChecksInOrder :
    isMode .cbcdec = true ∧ keyed.dlen.toNat = 0 ∧
      ({ keyed with dlen := 20 } : State).dlen.toNat ≠ 0 ∧ ({ keyed with dlen := 20 } : State).dlen.toNat % 16 ≠ 0 ∧
      ({ keyed with dptr := 225, dlen := 32 } : State).dlen.toNat ≠ 0 ∧
      ({ keyed with dptr := 225, dlen := 32 } : State).dlen.toNat % 16 = 0 ∧ keyed.cfg.dmemBytes < 225 + 32 ∧
      keyed.cfg.dmemBytes <
        ({ keyed with dptr := 0xFFFFFFF0 } : State).dptr.toNat + ({ keyed with dlen := 32 } : State).dlen.toNat := by
  decide +kernel

theorem test_witness_EcbResults :
    topBuffer.bufferOk ∧ 1 < topBuffer.dlen.toNat / 16 ∧ topBuffer.outsideBuffer 223 := by decide +kernel

theorem test_witness_CbcEncryptionResult :
    topBuffer.bufferOk ∧ 0 < topBuffer.dlen.toNat / 16 ∧ 1 < topBuffer.dlen.toNat / 16 ∧
      topBuffer.outsideBuffer 223 := by decide +kernel

theorem test_witness_CbcDecryptionResult :
    topBuffer.bufferOk ∧ 0 < topBuffer.dlen.toNat / 16 ∧ 1 < topBuffer.dlen.toNat / 16 ∧
      topBuffer.outsideBuffer 256 := by decide +kernel

theorem test_witness_FieldLaws :
    (0x53 : Byte) ≠ 0 ∧ multiply 0x53 0xCA = 1 ∧ multiply 0 0x53 = 0 := by decide +kernel

theorem test_witness_InverseIsTheSearch : (0x53 : Byte) ≠ 0 ∧ multiply 0x53 0xCA = 1 := by decide +kernel

/-- R101's worked example: the byte before inversion of `inverse_sbox(0xED)` is 0xCA. -/
theorem test_witness_SboxFormulas :
    (0xCA : Byte) = inverse 0x53 ∧
      (0xCA : Byte) = (0xED : Byte).rotateLeft 1 ^^^ (0xED : Byte).rotateLeft 3 ^^^ (0xED : Byte).rotateLeft 6 ^^^ 0x05 ∧
      ∀ i : Fin 8, (0xCA#8).getLsbD i.val =
        ((0xED#8).getLsbD ((i.val + 7) % 8) ^^ (0xED#8).getLsbD ((i.val + 5) % 8) ^^ (0xED#8).getLsbD ((i.val + 2) % 8) ^^
          (0x05#8).getLsbD i.val) := by decide +kernel

theorem test_witness_KeyScheduleHelpers : 1 ≤ 1 ∧ 1 ≤ 9 ∧ (9 : Nat) ≤ 9 := by decide

/-- Each key size, and an index for each case of `temp`. -/
theorem test_witness_KeyScheduleRecurrence :
    (4, 44) ∈ [(4, 44), (6, 52), (8, 60)] ∧ (3 : Nat) < 4 ∧ 4 ≤ 40 ∧ 40 < 44 ∧ 40 % 4 = 0 ∧ 43 % 4 ≠ 0 ∧
      (6, 52) ∈ [(4, 44), (6, 52), (8, 60)] ∧ 10 % 6 ≠ 0 ∧ ¬(6 = 8 ∧ 10 % 6 = 4) ∧
      (8, 60) ∈ [(4, 44), (6, 52), (8, 60)] ∧ 52 % 8 ≠ 0 ∧ 52 % 8 = 4 := by decide

/-- Two keys that differ in byte 16 only, under AES-128, and the state of R134's example. -/
theorem test_witness_ExpandKeyResult :
    (∀ i : Fin 32, i.val < 4 * keyWords keyed.ksel → (countingKey.set 16 0xff)[i] = keyed.key[i]) ∧
      keyed.key ≠ countingKey.set 16 0xff ∧ keyed.ksel = 128 ∧ keyed.status.fatal = false ∧
      (∀ i : Fin 16, keyed.key[i.val] = BitVec.ofNat 8 i.val) ∧ fatalState.status.fatal = true := by decide +kernel

theorem test_witness_KeySizeSelector :
    (128 : Word) = 128 ∧ (192 : Word) = 192 ∧ (129 : Word) ≠ 128 ∧ (129 : Word) ≠ 192 := by decide

theorem test_witness_BlockCommandsRestoreBlock : expanded.status.schedValid = true := by decide +kernel

/-- ROUND and INVROUND in their orders, for three rounds. -/
theorem test_witness_BlockCommandsEqualSequences :
    expanded.status.schedValid = true ∧
      encblkSequence 3 = [.addroundkey 0, .subbytes, .shiftrows, .mixcolumns, .addroundkey 1, .subbytes, .shiftrows,
        .mixcolumns, .addroundkey 2, .subbytes, .shiftrows, .addroundkey 3] ∧
      decblkSequence 3 = [.addroundkey 3, .invshiftrows, .invsubbytes, .addroundkey 2, .invmixcolumns, .invshiftrows,
        .invsubbytes, .addroundkey 1, .invmixcolumns, .invshiftrows, .invsubbytes, .addroundkey 0] := by decide +kernel

theorem test_witness_OnlyCbcReadsIv : Instr.ecbdec ≠ .cbcenc ∧ Instr.ecbdec ≠ .cbcdec := by decide

theorem test_witness_EcbRoundTrip : topBuffer.bufferOk := by decide +kernel

theorem test_witness_CbcRoundTrip : (threeBlocks exampleBlock).bufferOk := by decide +kernel

/-- Three blocks, the first one corrupted: blocks 0 and 1 are named by the statement, block 2 by its last clause. -/
theorem test_witness_CbcErrorPropagation :
    (threeBlocks exampleBlock).bufferOk ∧ 0 < (threeBlocks exampleBlock).dlen.toNat / 16 ∧
      (∀ k, k < (threeBlocks exampleBlock).dlen.toNat / 16 → k ≠ 0 →
        ({ threeBlocks exampleBlock with dmem := (threeBlocks corruptedBlock).dmem } : State).bufferBlock k =
          (threeBlocks exampleBlock).bufferBlock k) ∧
      ({ threeBlocks exampleBlock with dmem := (threeBlocks corruptedBlock).dmem } : State).bufferBlock 0 ≠
        (threeBlocks exampleBlock).bufferBlock 0 ∧
      0 + 1 < (threeBlocks exampleBlock).dlen.toNat / 16 ∧ 2 < (threeBlocks exampleBlock).dlen.toNat / 16 := by decide +kernel

theorem test_witness_RegisterMapExact :
    regAt 0x1EC = some (.rk 59) ∧ (Reg.rk 59).offset = 0x1EC := by decide +kernel

/-- One register of each kind, the last one of each group, with the word it holds in `expanded`. -/
theorem test_witness_RegisterReads :
    (0x00000002 : Word).toNat = expanded.status.err.toNat + 2 * expanded.status.schedValid.toNat +
        4 * expanded.status.fatal.toNat + 16 * expanded.status.cause.code ∧
      0x03C = 0x020 + 4 * (7 : Fin 8).val ∧
      (∀ r : Fin 4, byteOf 0x1f1e1d1c r.val = expanded.key[4 * (7 : Fin 8).val + r.val]) ∧
      0x04C = 0x040 + 4 * (3 : Fin 4).val ∧
      (∀ r : Fin 4, byteOf 0xffeeddcc r.val = expanded.block[4 * (3 : Fin 4).val + r.val]) ∧
      (∀ r : Fin 4, byteOf 0 r.val = expanded.iv[4 * (3 : Fin 4).val + r.val]) ∧
      0x1AC = 0x100 + 4 * (43 : Fin 60).val ∧ 0xc5302b4d = expanded.sched[(43 : Fin 60)] := by decide +kernel

theorem test_witness_DataRegistersReadBack :
    (∃ j, Reg.key 7 = .key j) ∧ Reg.key 0 ≠ .key 7 ∧ Reg.key 0 ≠ .status ∧ (∃ c, Reg.blk 3 = .blk c) ∧
      (∃ c, Reg.iv 3 = .iv c) ∧ Reg.ksel = .ksel ∧
      (Reg.dptr = .dptr ∧ Reg.dptr ≠ .ksel ∧ ∀ j, Reg.dptr ≠ .key j) ∧
      (Reg.dlen = .dlen ∧ Reg.dlen ≠ .ksel ∧ ∀ j, Reg.dlen ≠ .key j) :=
  ⟨⟨7, rfl⟩, by decide, by decide, ⟨3, rfl⟩, ⟨3, rfl⟩, rfl, ⟨rfl, by decide, by decide⟩, ⟨rfl, by decide, by decide⟩⟩

theorem test_witness_DmemAccesses : 255 < keyed.cfg.dmemBytes := by decide +kernel

/-- The edges of each gap of the map, and the first address above DMEM. -/
theorem test_witness_OutsideAccessesStop :
    0x003 % 4 ≠ 0 ∧ 0x018 ≤ 0x018 ∧ 0x01C < 0x020 ∧ 0x060 ≤ 0x060 ∧ 0x0FC < 0x100 ∧ 0x1F0 ≤ 0x1F0 ∧
      keyed.cfg.dmemBytes ≤ 256 := by decide +kernel

theorem test_witness_FirstCommandsAfterReset :
    hostOp .reset fatalState = .next fatalState.resetCore ∧ writesRes (.sbox 0) = true ∧ isMode .cbcdec = true ∧
      Instr.mixcolumns ∈ [Instr.subbytes, .invsubbytes, .shiftrows, .invshiftrows, .mixcolumns, .invmixcolumns] :=
  ⟨rfl, by decide, by decide, by decide⟩

theorem test_witness_KeyChangeInvalidatesSchedule :
    (Reg.ksel = .ksel) ∧ (∃ j, Reg.key 7 = .key j) ∧ ∃ n, Instr.addroundkey 255 = .addroundkey n :=
  ⟨rfl, ⟨7, rfl⟩, ⟨255, rfl⟩⟩

/-- The second clause: a command that expands nothing, and a write to DPTR, in a state without a schedule. -/
theorem test_witness_KeyChangeInvalidatesSchedule_further :
    keyed.status.schedValid = false ∧ decode 0x00000010 = .ok .subbytes ∧ expands .subbytes = false ∧
      gives (hostOp (.regWrite 0x000 0x00000010) keyed) (fun t => !t.status.schedValid) = true ∧
      gives (hostOp (.regWrite 0x010 0) keyed) (fun t => !t.status.schedValid) = true := by decide +kernel

theorem test_witness_SchedValidRule :
    expands .cbcdec = true ∧ gives (exec .cbcdec topBuffer) (fun t => !t.status.err) = true ∧
      gives (hostOp .reset expanded) (fun _ => true) = true ∧ (∃ j, Reg.key 7 = .key j) ∧
      gives (hostOp (.regWrite 0x03C 0) expanded) (fun t => t.status.schedValid != expanded.status.schedValid) = true :=
  ⟨by decide, by decide +kernel, by decide +kernel, ⟨7, rfl⟩, by decide +kernel⟩

end Sys2Proof.Machine.Tests
end

/-!
PROOF. Bytes and words (00_scope.md R10). A byte of a word and a packed word are each described once as a number;
packing and taking bytes are then inverse by arithmetic.
-/

namespace Sys2Proof.Machine

/-- Bit `k` of byte `r` is bit `8*r + k` of the word; past the byte's eight bits there is nothing. -/
theorem getLsbD_byteOf (w : Word) (r k : Nat) :
    (byteOf w r).getLsbD k = (decide (k < 8) && w.getLsbD (8 * r + k)) :=
  BitVec.getLsbD_extractLsb' ..

theorem toNat_byteOf (w : Word) (r : Nat) : (byteOf w r).toNat = w.toNat / 2 ^ (8 * r) % 256 := by
  rw [byteOf, BitVec.extractLsb'_toNat, Nat.shiftRight_eq_div_pow]

/-- The shifted bytes of `pack` do not overlap: its ORs put them side by side, `b0` lowest. -/
theorem pack_eq_append (b0 b1 b2 b3 : Byte) : pack b0 b1 b2 b3 = b3 ++ b2 ++ b1 ++ b0 := by
  apply BitVec.eq_of_getLsbD_eq
  intro i hi
  change _ = BitVec.getLsbD (b3 ++ b2 ++ b1 ++ b0) i
  simp only [BitVec.getLsbD_append]
  interval_cases i <;> simp [pack]

/-- A byte appended at the low end is added below 256 times the rest. -/
theorem toNat_append_byte {n : Nat} (x : BitVec n) (b : Byte) : (x ++ b).toNat = 256 * x.toNat + b.toNat := by
  rw [BitVec.toNat_append, ← Nat.shiftLeft_add_eq_or_of_lt b.isLt, Nat.shiftLeft_eq, Nat.mul_comm]

theorem toNat_pack (b0 b1 b2 b3 : Byte) :
    (pack b0 b1 b2 b3).toNat = b0.toNat + 256 * b1.toNat + 65536 * b2.toNat + 16777216 * b3.toNat := by
  simp only [pack_eq_append, toNat_append_byte]
  omega

@[simp] theorem byteOf_pack (b0 b1 b2 b3 : Byte) :
    byteOf (pack b0 b1 b2 b3) 0 = b0 ∧ byteOf (pack b0 b1 b2 b3) 1 = b1 ∧
      byteOf (pack b0 b1 b2 b3) 2 = b2 ∧ byteOf (pack b0 b1 b2 b3) 3 = b3 := by
  simp only [← BitVec.toNat_inj, toNat_byteOf, toNat_pack]
  omega

@[simp] theorem pack_byteOf (w : Word) : pack (byteOf w 0) (byteOf w 1) (byteOf w 2) (byteOf w 3) = w := by
  apply BitVec.eq_of_toNat_eq
  simp only [toNat_pack, toNat_byteOf]
  omega

/-- Settles O60: the bit rule of `byteOf`, the two inverse laws, and the value of a packed word. -/
theorem packingIsLittleEndian : Obligations.PackingIsLittleEndian := by
  refine ⟨?bits, byteOf_pack, pack_byteOf, toNat_pack⟩
  case bits =>
    intro w r k
    simp only [getLsbD_byteOf, k.isLt, decide_true, Bool.true_and]

end Sys2Proof.Machine

/-!
PROOF. What a command can do (30_encoding.md R70), said once: each command ends in one of seven ways, and every frame
and invariant about commands is a case split over them.
-/

namespace Sys2Proof.Machine

/-- What a command can do to the state, one case per way of ending it: an error, the one fatal error, or success with
the one thing its rule lets it write (10_state.md R21, R24, R25, R33). -/
inductive CommandEffect (i : Instr) (s : State) : State → Prop
  | error (c : Cause) (hnone : c ≠ .none) (hrange : c ≠ .roundRange) : CommandEffect i s (s.raiseError c)
  | fatal (n : Nat) (hi : i = .addroundkey n) : CommandEffect i s (s.raiseFatal .roundRange)
  | nothing (hi : i = .nop) : CommandEffect i s s.succeed
  | byte (hi : writesRes i = true) (v : Byte) : CommandEffect i s (s.setRes v).succeed
  | block (hi : writesBlock i = true) (f : Block → Block) : CommandEffect i s (s.transform f)
  | schedule (hi : i = .expandkey) : CommandEffect i s s.expandSchedule.succeed
  | buffer (hi : isMode i = true) (m : Memory) : CommandEffect i s (s.expandSchedule.setDmem m).succeed

/-- A failed buffer check is an error, and not the fatal one (R150). -/
theorem modeCheck_cause {s : State} {c : Cause} (h : modeCheck s = some c) : c ≠ .none ∧ c ≠ .roundRange := by
  unfold modeCheck at h
  split_ifs at h <;> cases h <;> decide

/-- A mode command fails a check, or rewrites DMEM under a fresh schedule. -/
theorem runMode_effect {i : Instr} (hi : isMode i = true) (f : Vector Word 60 → Nat → BlockStep) (s : State) :
    ∃ t, runMode f s = .next t ∧ CommandEffect i s t := by
  cases hc : modeCheck s with
  | some c =>
    obtain ⟨hnone, hrange⟩ := modeCheck_cause hc
    exact ⟨_, runMode_failed hc, .error c hnone hrange⟩
  | none => exact ⟨_, runMode_passed (modeCheck_eq_none.mp hc), .buffer hi _⟩

/-- A command that needs a schedule fails with NO_SCHEDULE, or does what it does with one. -/
theorem needsSchedule_effect {i : Instr} {s : State} {r : Result} (hr : ∃ t, r = .next t ∧ CommandEffect i s t) :
    ∃ t, (if s.status.schedValid = false then .next (s.raiseError .noSchedule) else r) = .next t ∧
      CommandEffect i s t := by
  split
  · exact ⟨_, rfl, .error _ (by decide) (by decide)⟩
  · exact hr

/-- Every command ends in a next state, by one of the seven effects. -/
theorem exec_effect (i : Instr) (s : State) : ∃ t, exec i s = .next t ∧ CommandEffect i s t := by
  cases i with
  | nop => exact ⟨_, rfl, .nothing rfl⟩
  | gfmul | gfinv | sbox | isbox => exact ⟨_, rfl, .byte rfl _⟩
  | subbytes | invsubbytes | shiftrows | invshiftrows | mixcolumns | invmixcolumns => exact ⟨_, rfl, .block rfl _⟩
  | encblk | decblk => exact needsSchedule_effect ⟨_, rfl, .block rfl _⟩
  | addroundkey n =>
    refine needsSchedule_effect ?_
    split
    · exact ⟨_, rfl, .fatal n rfl⟩
    · exact ⟨_, rfl, .block rfl _⟩
  | expandkey => exact ⟨_, rfl, .schedule rfl⟩
  | ecbenc | ecbdec | cbcenc | cbcdec => exact runMode_effect rfl _ s

/-- The inversion of `exec`. -/
theorem commandEffect_of_exec {i : Instr} {s t : State} (h : exec i s = .next t) : CommandEffect i s t := by
  obtain ⟨u, hu, he⟩ := exec_effect i s
  cases hu.symm.trans h
  exact he

/-- Settles O18: the fields each effect leaves alone, and which commands have that effect. -/
theorem commandFrame : Obligations.CommandFrame := by
  intro i s t h
  cases commandEffect_of_exec h with
  | error | nothing => simp
  | fatal n hi => simp [hi]
  | byte hi | block hi => simp [hi]
  | schedule hi | buffer hi => simp [hi, expands]

end Sys2Proof.Machine

/-!
PROOF. The register map (10_state.md R35) and what a register write does (R31, R37, 46_system.md R171).
-/

namespace Sys2Proof.Machine

/-! ### The map -/

theorem regAt_offset (r : Reg) : regAt r.offset = some r := by
  cases r with
  | cmd | status | ksel | res | dptr | dlen => rfl
  | key j => revert j; decide
  | blk c => revert c; decide
  | iv c => revert c; decide
  | rk i => revert i; decide

/-- One case per entry of the map, in its order. -/
theorem offset_of_regAt {off : Nat} {r : Reg} (h : regAt off = some r) : off = r.offset := by
  rw [regAt] at h
  obtain ⟨hword, h⟩ := Option.ite_none_left_eq_some.mp h
  iterate 10
    obtain ⟨_, hr⟩ | ⟨_, h⟩ := ite_eq_iff.mp h
    · cases hr
      simp only [Reg.offset, Fin.val_ofNat]
      omega
  cases h

/-- Settles O49: the two directions between `regAt` and `Reg.offset`. -/
theorem registerMapExact : Obligations.RegisterMapExact :=
  fun _ _ => ⟨offset_of_regAt, fun h => h ▸ regAt_offset _⟩

theorem regAt_eq_none {off : Nat} (h : ∀ r : Reg, off ≠ r.offset) : regAt off = none :=
  Option.eq_none_iff_forall_ne_some.mpr fun r hr => h r (offset_of_regAt hr)

/-- Settles O54: no register's offset lies in a gap of the map. -/
theorem outsideAccessesStop : Obligations.OutsideAccessesStop := by
  refine ⟨fun s off v hgap => ?reg, fun s a v ha => ?dmem⟩
  case reg =>
    have hnone : regAt off = none := regAt_eq_none fun r hr => by
      cases r <;> simp only [Reg.offset] at hr <;> omega
    exact ⟨by simp only [hostOp, hostRegRead, hnone], by simp only [hostOp, hostRegWrite, hnone]⟩
  case dmem =>
    exact ⟨if_neg (Nat.not_lt.mpr ha), if_neg (Nat.not_lt.mpr ha)⟩

/-! ### Words of byte registers -/

theorem getD_setWordAt {n : Nat} (v : Vector Byte n) (j : Nat) (w : Word) (i : Nat) (d : Byte) :
    (setWordAt v j w).getD i d = if i / 4 = j ∧ i < n then byteOf w (i % 4) else v.getD i d := by
  by_cases hi : i < n <;> simp [Vector.getD, hi]

/-- A word written to a byte register reads back (R37). -/
theorem wordAt_setWordAt_same {n : Nat} (v : Vector Byte n) {j : Nat} (w : Word) (hj : 4 * j + 3 < n) :
    wordAt (setWordAt v j w) j = w := by
  have hbyte (r : Nat) (hr : r < 4) : (setWordAt v j w).getD (4 * j + r) 0 = byteOf w r := by
    rw [getD_setWordAt, if_pos (by omega), show (4 * j + r) % 4 = r by omega]
  rw [wordAt, hbyte 1 (by decide), hbyte 2 (by decide), hbyte 3 (by decide), ← Nat.add_zero (4 * j),
    hbyte 0 (by decide), pack_byteOf]

/-- The words of a byte register are views of distinct bytes (R37). -/
theorem wordAt_setWordAt_other {n : Nat} (v : Vector Byte n) {j k : Nat} (w : Word) (hk : k ≠ j) :
    wordAt (setWordAt v j w) k = wordAt v k := by
  have hbyte (i : Nat) (hi : i / 4 = k) : (setWordAt v j w).getD i 0 = v.getD i 0 := by
    rw [getD_setWordAt, if_neg (by omega)]
  simp only [wordAt]
  rw [hbyte _ (by omega), hbyte _ (by omega), hbyte _ (by omega), hbyte _ (by omega)]

/-! ### Register writes -/

/-- A write to the offset of a register other than CMD stores into that register (R171). -/
theorem hostOp_regWrite_offset {r : Reg} (hr : r ≠ .cmd) (v : Word) (s : State) :
    hostOp (.regWrite r.offset v) s = .next (s.storeReg r v) := by
  simp only [hostOp, hostRegWrite, regAt_offset]

theorem readReg_storeReg_same (s : State) {r : Reg} (v : Word)
    (hr : (∃ j, r = .key j) ∨ (∃ c, r = .blk c) ∨ (∃ c, r = .iv c) ∨ r = .ksel ∨ r = .dptr ∨ r = .dlen) :
    (s.storeReg r v).readReg r = v := by
  obtain ⟨j, rfl⟩ | ⟨c, rfl⟩ | ⟨c, rfl⟩ | rfl | rfl | rfl := hr
  · exact wordAt_setWordAt_same s.key v (by omega)
  · exact wordAt_setWordAt_same s.block v (by omega)
  · exact wordAt_setWordAt_same s.iv v (by omega)
  all_goals rfl

theorem readReg_storeReg_other (s : State) {r q : Reg} (v : Word) (hq : q ≠ r) (hstatus : q ≠ .status) :
    (s.storeReg r v).readReg q = s.readReg q := by
  cases r with
  | cmd | status | res | rk => rfl
  | ksel =>
    cases q with
    | ksel | status => contradiction
    | _ => rfl
  | dptr =>
    cases q with
    | dptr => contradiction
    | _ => rfl
  | dlen =>
    cases q with
    | dlen => contradiction
    | _ => rfl
  | key j =>
    cases q with
    | key k => exact wordAt_setWordAt_other s.key v fun h => hq (congrArg _ (Fin.ext h))
    | status => contradiction
    | _ => simp [State.storeReg, State.readReg]
  | blk c =>
    cases q with
    | blk k => exact wordAt_setWordAt_other s.block v fun h => hq (congrArg _ (Fin.ext h))
    | _ => simp [State.storeReg, State.readReg]
  | iv c =>
    cases q with
    | iv k => exact wordAt_setWordAt_other s.iv v fun h => hq (congrArg _ (Fin.ext h))
    | _ => simp [State.storeReg, State.readReg]

/-- A write to KSEL or a KEYj clears SCHED_VALID (R31). -/
theorem storeReg_status_key (s : State) {r : Reg} (v : Word) (hr : r = .ksel ∨ ∃ j, r = .key j) :
    (s.storeReg r v).status = statusSchedValid false s.status := by
  obtain rfl | ⟨j, rfl⟩ := hr <;> rfl

theorem storeReg_status_other (s : State) {r : Reg} (v : Word) (hr : ¬ (r = .ksel ∨ ∃ j, r = .key j)) :
    (s.storeReg r v).status = s.status := by
  cases r with
  | ksel => exact absurd (.inl rfl) hr
  | key j => exact absurd (.inr ⟨j, rfl⟩) hr
  | _ => simp only [State.storeReg]

theorem storeReg_sched (s : State) (r : Reg) (v : Word) : (s.storeReg r v).sched = s.sched := by
  cases r <;> simp [State.storeReg]

/-- Settles O52: the word views of R37, and what `storeReg` does to STATUS. -/
theorem dataRegistersReadBack : Obligations.DataRegistersReadBack := by
  intro s v r q hr
  have hcmd : r ≠ .cmd := by
    rintro rfl
    simp at hr
  exact ⟨_, hostOp_regWrite_offset hcmd v s, readReg_storeReg_same s v hr, readReg_storeReg_other s v,
    storeReg_status_key s v,
    fun hksel hkey => congrArg statusWord (storeReg_status_other s v (not_or.mpr ⟨hksel, not_exists.mpr hkey⟩))⟩

end Sys2Proof.Machine

/-!
PROOF. Invariants of the step (10_state.md R38, R30), and the state after reset (R36).
-/

namespace Sys2Proof.Machine

/-! ### What a step keeps -/

/-- Settles O7: the two cases of the step. -/
theorem stepTakesOldestOperation : Obligations.StepTakesOldestOperation :=
  ⟨fun _ h => step_idle h, fun _ _ _ h => step_pending h⟩

/-- What every host operation keeps, a step keeps, if it does not speak of the pending operations. -/
theorem step_keeps {P : State → Prop} (htake : ∀ s rest, P s → P { s with host := rest })
    (hop : ∀ op s t, P s → hostOp op s = .next t → P t) {s t : State} (hs : P s) (h : step s = .next t) : P t := by
  cases hh : s.host with
  | nil =>
    cases (step_idle hh).symm.trans h
    exact hs
  | cons op rest => exact hop op _ t (htake s rest hs) ((step_pending hh).symm.trans h)

/-- What a host operation keeps, from one fact per thing it can do. A word written to CMD does something only while
FATAL is 0 (R70). -/
theorem hostOp_keeps {P : State → Prop} (hreply : ∀ s r, P s → P (s.reply r))
    (hillegal : ∀ s, s.status.fatal = false → P s → P (s.raiseError .illegalCmd))
    (hcommand : ∀ i s t, s.status.fatal = false → P s → CommandEffect i s t → P t)
    (hstore : ∀ s r v, P s → P (s.storeReg r v)) (hdmem : ∀ s m, P s → P (s.setDmem m))
    (hreset : ∀ s, P s → P s.resetCore) (op : HostOp) (s t : State) (hs : P s) (h : hostOp op s = .next t) : P t := by
  obtain ⟨_, _, _, _, rfl⟩ | ⟨_, _, _, _, hrun⟩ | ⟨_, _, _, _, _, _, rfl⟩ | ⟨_, _, _, rfl⟩ | ⟨_, _, _, _, rfl⟩ |
    ⟨_, rfl⟩ := hostOp_cases h
  · exact hreply _ _ hs
  · obtain ⟨_, rfl⟩ | ⟨hf, rfl⟩ | ⟨hf, i, _, he⟩ := runCommand_cases hrun
    · exact hs
    · exact hillegal _ hf hs
    · exact hcommand i _ _ hf hs (commandEffect_of_exec he)
  · exact hstore _ _ _ hs
  · exact hreply _ _ hs
  · exact hdmem _ _ hs
  · exact hreset _ hs

/-! ### W is current while SCHED_VALID is 1 -/

theorem scheduleCurrent_succeed {s : State} : s.succeed.scheduleCurrent ↔ s.scheduleCurrent := Iff.rfl

theorem scheduleCurrent_setDmem {s : State} {m : Memory} : (s.setDmem m).scheduleCurrent ↔ s.scheduleCurrent := Iff.rfl

/-- Right after an expansion W is current (R134). -/
theorem scheduleCurrent_expandSchedule (s : State) : s.expandSchedule.scheduleCurrent := by
  have hlen : (expandKey s.key (keyWords s.ksel) (schedWords s.ksel)).length = schedWords s.ksel :=
    length_expandKey _ _ _ (by have := keySize_cases s.ksel; unfold schedWords; omega)
  intro _ i hi
  simp only [State.expandSchedule_ksel] at hi
  simp [hlen, hi]

/-- A command leaves K, KSEL, W and SCHED_VALID alone, or it expands. -/
theorem commandEffect_keeps_scheduleCurrent {i : Instr} {s t : State} (hs : s.scheduleCurrent)
    (h : CommandEffect i s t) : t.scheduleCurrent := by
  cases h with
  | error | fatal | nothing | byte | block => exact hs
  | schedule => exact scheduleCurrent_succeed.mpr (scheduleCurrent_expandSchedule s)
  | buffer => exact scheduleCurrent_succeed.mpr (scheduleCurrent_setDmem.mpr (scheduleCurrent_expandSchedule s))

/-- A register write clears SCHED_VALID, or it leaves K and KSEL alone. -/
theorem storeReg_keeps_scheduleCurrent {s : State} (r : Reg) (v : Word) (hs : s.scheduleCurrent) :
    (s.storeReg r v).scheduleCurrent := by
  cases r with
  | ksel | key => exact Bool.noConfusion
  | cmd | status | res | dptr | dlen | rk => exact hs
  | blk | iv => simpa only [State.storeReg] using hs

/-- Settles O11: a host operation expands the present key, clears SCHED_VALID, or touches neither W, K nor KSEL. -/
theorem scheduleCurrentKept : Obligations.ScheduleCurrentKept := by
  refine ⟨Bool.noConfusion,
    fun s t => step_keeps (fun _ _ h => h) (hostOp_keeps ?reply ?illegal ?command ?store ?dmem ?reset)⟩
  case reply | illegal | dmem => intros; assumption
  case command => exact fun i s t _ hs h => commandEffect_keeps_scheduleCurrent hs h
  case store => exact fun s r v => storeReg_keeps_scheduleCurrent r v
  case reset => exact fun s _ => Bool.noConfusion

/-! ### ERR, CAUSE and FATAL agree -/

/-- A command that FATAL does not stop sets ERR, CAUSE and FATAL together. -/
theorem statusConsistent_of_commandEffect {i : Instr} {s t : State} (hf : s.status.fatal = false)
    (h : CommandEffect i s t) : t.statusConsistent := by
  cases h with
  | error c hnone hrange => simp [State.statusConsistent, hf, hnone, hrange]
  | fatal => simp [State.statusConsistent]
  | nothing | byte | block | schedule | buffer => simp [State.statusConsistent, hf]

theorem storeReg_keeps_statusConsistent {s : State} (r : Reg) (v : Word) (hs : s.statusConsistent) :
    (s.storeReg r v).statusConsistent := by
  by_cases hr : r = .ksel ∨ ∃ j, r = .key j
  · simpa [State.statusConsistent, storeReg_status_key s v hr] using hs
  · simpa [State.statusConsistent, storeReg_status_other s v hr] using hs

/-- Settles O12: only commands write ERR, CAUSE and FATAL, and none runs while FATAL is 1. -/
theorem statusConsistentKept : Obligations.StatusConsistentKept := by
  refine fun s t => step_keeps (fun _ _ h => h) (hostOp_keeps ?reply ?illegal ?command ?store ?dmem ?reset)
  case reply | dmem => intros; assumption
  case illegal => exact fun s hf _ => by simp [State.statusConsistent, hf]
  case command => exact fun i s t hf _ h => statusConsistent_of_commandEffect hf h
  case store => exact fun s r v => storeReg_keeps_statusConsistent r v
  case reset => exact fun s _ => by simp [State.statusConsistent, State.resetCore, Status.reset]

/-! ### The state after reset -/

/-- Settles O15: with SCHED_VALID = 0 the schedule is current, and DMEM lists nothing. -/
theorem resetMeetsInvariants : Obligations.ResetMeetsInvariants := by
  refine ⟨?status, scheduleCurrentKept.1, ⟨Memory.wf_reset, ?listed⟩, ?cfg⟩
  all_goals decide

/-- Settles O56, by evaluation of the reset state. -/
theorem resetStateValues : Obligations.ResetStateValues := by
  unfold Obligations.ResetStateValues
  decide

/-- Settles O41: the two tests on KSEL. -/
theorem keySizeSelector : Obligations.KeySizeSelector := by
  refine fun ksel => ⟨?k128, ?k192, ?other⟩
  case k128 | k192 => rintro rfl; decide
  case other =>
    intro h128 h192
    simp only [schedWords, keyWords, rounds, if_neg h128, if_neg h192, and_self]

end Sys2Proof.Machine

/-!
PROOF. SCHED_VALID (10_state.md R31, 70_reset_and_hazards.md R216, R220): what sets it, what clears it, and which
commands fail without it.
-/

namespace Sys2Proof.Machine

theorem expands_eq_false_of_writesRes {i : Instr} (h : writesRes i = true) : expands i = false := by
  cases i with
  | gfmul | gfinv | sbox | isbox => rfl
  | _ => cases h

theorem expands_eq_false_of_writesBlock {i : Instr} (h : writesBlock i = true) : expands i = false := by
  cases i with
  | subbytes | invsubbytes | shiftrows | invshiftrows | mixcolumns | invmixcolumns | addroundkey | encblk
  | decblk => rfl
  | _ => cases h

/-- A command expands and succeeds, and sets SCHED_VALID, or it leaves SCHED_VALID alone. -/
theorem commandEffect_schedValid {i : Instr} {s t : State} (h : CommandEffect i s t) :
    (expands i = true ∧ t.status.err = false ∧ t.status.schedValid = true) ∨
      ((expands i = true → t.status.err = true) ∧ t.status.schedValid = s.status.schedValid) := by
  cases h with
  | error | fatal => exact .inr ⟨fun _ => rfl, rfl⟩
  | nothing hi => exact .inr ⟨by simp [hi, expands, isMode], rfl⟩
  | byte hi => exact .inr ⟨by simp [expands_eq_false_of_writesRes hi], rfl⟩
  | block hi => exact .inr ⟨by simp [expands_eq_false_of_writesBlock hi], rfl⟩
  | schedule hi | buffer hi => exact .inl ⟨by simp [hi, expands], rfl, rfl⟩

/-- What a host operation does to SCHED_VALID: nothing, or one of the three things R31 lists. -/
theorem hostOp_schedValid {op : HostOp} {s t : State} (h : hostOp op s = .next t) :
    t.status.schedValid = s.status.schedValid ∨
      (op = .reset ∧ t.status.schedValid = false) ∨
      (∃ (r : Reg) (v : Word), (r = .ksel ∨ ∃ j, r = .key j) ∧ op = .regWrite r.offset v ∧
        t.status.schedValid = false) ∨
      (∃ w i, op = .regWrite 0x000 w ∧ decode w = .ok i ∧ expands i = true ∧ t.status.err = false) := by
  obtain ⟨_, _, _, _, rfl⟩ | ⟨off, w, rfl, hoff, hrun⟩ | ⟨off, v, r, rfl, hoff, _, rfl⟩ | ⟨_, _, _, rfl⟩ |
    ⟨_, _, _, _, rfl⟩ | ⟨rfl, rfl⟩ := hostOp_cases h
  · exact .inl rfl
  · obtain rfl : off = 0x000 := offset_of_regAt hoff
    obtain ⟨_, rfl⟩ | ⟨_, rfl⟩ | ⟨_, i, hw, he⟩ := runCommand_cases hrun
    · exact .inl rfl
    · exact .inl rfl
    · obtain ⟨hi, herr, _⟩ | ⟨_, hsame⟩ := commandEffect_schedValid (commandEffect_of_exec he)
      · exact .inr (.inr (.inr ⟨w, i, rfl, hw, hi, herr⟩))
      · exact .inl hsame
  · obtain rfl := offset_of_regAt hoff
    by_cases hr : r = .ksel ∨ ∃ j, r = .key j
    · exact .inr (.inr (.inl ⟨r, v, hr, rfl, congrArg Status.schedValid (storeReg_status_key s v hr)⟩))
    · exact .inl (congrArg Status.schedValid (storeReg_status_other s v hr))
  · exact .inl rfl
  · exact .inl rfl
  · exact .inr (.inl ⟨rfl, rfl⟩)

/-- A write to KSEL or a KEYj clears SCHED_VALID and leaves W alone. -/
theorem hostOp_regWrite_key (s : State) {r : Reg} (v : Word) (hr : r = .ksel ∨ ∃ j, r = .key j) :
    ∃ t, hostOp (.regWrite r.offset v) s = .next t ∧ t.sched = s.sched ∧ t.status.schedValid = false := by
  have hcmd : r ≠ .cmd := by
    rintro rfl
    simp at hr
  exact ⟨_, hostOp_regWrite_offset hcmd v s, storeReg_sched s r v,
    congrArg Status.schedValid (storeReg_status_key s v hr)⟩

/-- Settles O59: what commands and host operations do to SCHED_VALID. -/
theorem schedValidRule : Obligations.SchedValidRule := by
  refine ⟨?set, ?reset, ?key, ?only⟩
  case set =>
    intro i s t hi h herr
    obtain ⟨_, _, hvalid⟩ | ⟨hfail, _⟩ := commandEffect_schedValid (commandEffect_of_exec h)
    · exact hvalid
    · simp [hfail hi] at herr
  case reset =>
    intro s t h
    rw [← Host.Outcome.next.inj h]
    rfl
  case key =>
    intro s r v hr
    obtain ⟨t, ht, _, hvalid⟩ := hostOp_regWrite_key s v hr
    exact ⟨t, ht, hvalid⟩
  case only =>
    intro op s t h hne
    obtain hsame | ⟨hop, _⟩ | ⟨r, v, rfl | ⟨j, rfl⟩, hop, _⟩ | hexp := hostOp_schedValid h
    · exact absurd hsame hne
    · exact .inl hop
    · exact .inr (.inl ⟨v, hop⟩)
    · exact .inr (.inr (.inl ⟨j, v, hop⟩))
    · exact .inr (.inr (.inr hexp))

/-- Without a valid schedule ENCBLK, DECBLK and ADDROUNDKEY fail with NO_SCHEDULE (R122, R142, R143). -/
theorem exec_noSchedule {s : State} (hs : s.status.schedValid = false) {i : Instr}
    (hi : i = .encblk ∨ i = .decblk ∨ ∃ n, i = .addroundkey n) : exec i s = .next (s.raiseError .noSchedule) := by
  obtain rfl | rfl | ⟨n, rfl⟩ := hi <;> exact if_pos hs

/-- Settles O58: SCHED_VALID is 0 after such a write, and stays 0 until a command expands the key. -/
theorem keyChangeInvalidatesSchedule : Obligations.KeyChangeInvalidatesSchedule := by
  refine ⟨fun s r v hr => ?write, fun op s t hs h hexp => ?further⟩
  case write =>
    obtain ⟨t, ht, hsched, hvalid⟩ := hostOp_regWrite_key s v hr
    exact ⟨t, ht, hsched, hvalid, fun i => exec_noSchedule hvalid⟩
  case further =>
    have hvalid : t.status.schedValid = false := by
      obtain hsame | ⟨_, hf⟩ | ⟨_, _, _, _, hf⟩ | ⟨w, i, hop, hw, hi, _⟩ := hostOp_schedValid h
      · exact hsame.trans hs
      · exact hf
      · exact hf
      · exact absurd (hexp w i hop hw) (by simp [hi])
    exact ⟨hvalid, fun i => exec_noSchedule hvalid⟩

end Sys2Proof.Machine

/-!
PROOF. Who reads V (10_state.md R23): the ECB block steps ignore the chaining value, and no other command but the CBC
ones looks at it.
-/

namespace Sys2Proof.Machine

/-- Neither reads nor writes V: from `s` with another V it ends as from `s`, with that V. -/
def IgnoresIv (c : State → Result) : Prop :=
  ∀ (s : State) (v : Block), ∃ t, c s = .next t ∧ c { s with iv := v } = .next { t with iv := v }

/-- Where the block step's output ignores the chaining value, so does the content of DMEM. -/
theorem modeLoop_dmem_of_ignores_chain {f : BlockStep} (hf : ∀ ch ch' x, (f ch x).1 = (f ch' x).1) (base n : Nat)
    (m : Memory) (ch ch' : Block) : (modeLoop f base n (m, ch)).1 = (modeLoop f base n (m, ch')).1 := by
  induction n with
  | zero => rfl
  | succ n ih => simp only [modeLoop, ih, hf _ (modeLoop f base n (m, ch')).2]

theorem ignoresIv_runMode {f : Vector Word 60 → Nat → BlockStep}
    (hf : ∀ w nr ch ch' x, (f w nr ch x).1 = (f w nr ch' x).1) : IgnoresIv (runMode f) := by
  intro s v
  cases hc : modeCheck s with
  | some c => exact ⟨_, runMode_failed hc, runMode_failed hc⟩
  | none =>
    have hok := modeCheck_eq_none.mp hc
    refine ⟨_, runMode_passed hok, ?_⟩
    rw [runMode_passed (s := { s with iv := v }) hok]
    exact congrArg (fun m => Host.Outcome.next { (s.expandSchedule.setDmem m).succeed with iv := v })
      (modeLoop_dmem_of_ignores_chain (hf _ _) _ _ _ v s.iv)

theorem ignoresIv_needsSchedule {c : State → Result} (hc : IgnoresIv c) :
    IgnoresIv fun s => if s.status.schedValid = false then .next (s.raiseError .noSchedule) else c s := by
  intro s v
  by_cases h : s.status.schedValid = false
  · exact ⟨_, if_pos h, if_pos h⟩
  · obtain ⟨t, ht, hv⟩ := hc s v
    exact ⟨t, (if_neg h).trans ht, (if_neg h).trans hv⟩

theorem ignoresIv_exec {i : Instr} (henc : i ≠ .cbcenc) (hdec : i ≠ .cbcdec) : IgnoresIv (exec i) := by
  cases i with
  | cbcenc | cbcdec => contradiction
  | ecbenc | ecbdec => exact ignoresIv_runMode fun _ _ _ _ _ => rfl
  | encblk | decblk => exact ignoresIv_needsSchedule fun _ _ => ⟨_, rfl, rfl⟩
  | addroundkey n =>
    refine ignoresIv_needsSchedule fun s v => ?_
    by_cases h : n > rounds s.ksel
    · exact ⟨_, if_pos h, if_pos h⟩
    · exact ⟨_, if_neg h, if_neg h⟩
  | _ => exact fun _ _ => ⟨_, rfl, rfl⟩

theorem commandEffect_iv {i : Instr} {s t : State} (h : CommandEffect i s t) : t.iv = s.iv := by
  cases h <;> simp

/-- Settles O45: commands other than the CBC ones ignore V, and no effect of a command writes it. -/
theorem onlyCbcReadsIv : Obligations.OnlyCbcReadsIv := by
  refine ⟨fun i s v henc hdec => ignoresIv_exec henc hdec s v, fun i s => ?_⟩
  obtain ⟨t, ht, he⟩ := exec_effect i s
  exact ⟨t, ht, commandEffect_iv he⟩

end Sys2Proof.Machine

/-!
PROOF. DMEM (20_memory.md R50, R56): its canonical form is determined by its contents, every step keeps the form and the
bounds, and what a host access does to it (46_system.md R171).
-/

namespace Sys2Proof.Machine

/-! ### A canonical DMEM is the set of its bytes that differ from `Config.unlistedByte` -/

theorem Memory.mem_of_read_ne {m : Memory} {a : Nat} (h : m.read a ≠ Config.unlistedByte) : (a, m.read a) ∈ m := by
  induction m with
  | nil => exact absurd rfl h
  | cons c m ih =>
    by_cases ha : a = c.1
    · simp only [Memory.read, if_pos ha]
      exact ha ▸ List.mem_cons_self
    · simp only [Memory.read, if_neg ha] at h ⊢
      exact List.mem_cons_of_mem _ (ih h)

theorem Memory.read_of_mem {m : Memory} (hm : m.Pairwise fun x y => x.1 < y.1) {c : Host.Cell} (hc : c ∈ m) :
    m.read c.1 = c.2 := by
  induction m with
  | nil => cases hc
  | cons d m ih =>
    obtain ⟨hd, hm⟩ := List.pairwise_cons.mp hm
    obtain rfl | hc := List.mem_cons.mp hc
    · exact if_pos rfl
    · exact (if_neg (hd c hc).ne').trans (ih hm hc)

/-- The reads of a canonical DMEM tell which cells it lists. -/
theorem Memory.mem_iff_read {m : Memory} (hm : m.wf) {c : Host.Cell} :
    c ∈ m ↔ m.read c.1 = c.2 ∧ c.2 ≠ Config.unlistedByte := by
  refine ⟨fun hc => ⟨Memory.read_of_mem hm.1 hc, hm.2 c hc⟩, fun ⟨hread, hne⟩ => ?_⟩
  have hmem : (c.1, m.read c.1) ∈ m := Memory.mem_of_read_ne (hread ▸ hne)
  rwa [hread] at hmem

/-- Settles O14: equal reads list the same cells, and two rising lists of the same cells are equal. -/
theorem memoryCanonicalUnique : Obligations.MemoryCanonicalUnique := by
  intro m n hm hn hread
  have hirrefl : Std.Irrefl fun x y : Host.Cell => x.1 < y.1 := ⟨fun x => Nat.lt_irrefl x.1⟩
  have hantisymm : Std.Antisymm fun x y : Host.Cell => x.1 < y.1 := ⟨fun _ _ hxy hyx => absurd hxy hyx.asymm⟩
  exact hm.1.eq_of_mem_iff hn.1 fun c => by rw [Memory.mem_iff_read hm, Memory.mem_iff_read hn, hread]

/-! ### Every step keeps the form and the bounds -/

/-- `memoryOk` speaks of DMEM and the configuration only. -/
theorem memoryOk_congr {s t : State} (hdmem : t.dmem = s.dmem) (hcfg : t.cfg = s.cfg) :
    t.memoryOk ↔ s.memoryOk := by
  rw [State.memoryOk, hdmem, hcfg]

theorem memoryOk_setDmem_iff {s : State} {m : Memory} :
    (s.setDmem m).memoryOk ↔ m.wf ∧ ∀ c ∈ m, c.1 < s.cfg.dmemBytes := Iff.rfl

/-- The loop over a buffer that passes the checks lists existing addresses only. -/
theorem memoryOk_setDmem_modeLoop {s : State} (hs : s.memoryOk) (hok : s.bufferOk) (f : BlockStep) (ch : Block) :
    (s.setDmem (modeLoop f s.dptr.toNat (s.dlen.toNat / 16) (s.dmem, ch)).1).memoryOk := by
  obtain ⟨hwf, hlisted⟩ := hs
  obtain ⟨_, _, hrange⟩ := hok
  refine memoryOk_setDmem_iff.mpr ⟨wf_modeLoop _ _ _ _ hwf, fun c hc => ?_⟩
  obtain ⟨_, hlt⟩ | hold := mem_modeLoop hc
  · omega
  · exact hlisted c hold

theorem runMode_keeps_memoryOk {f : Vector Word 60 → Nat → BlockStep} {s t : State} (hs : s.memoryOk)
    (h : runMode f s = .next t) : t.memoryOk := by
  cases hc : modeCheck s with
  | some c =>
    cases (runMode_failed hc).symm.trans h
    exact hs
  | none =>
    have hok := modeCheck_eq_none.mp hc
    cases (runMode_passed hok).symm.trans h
    refine (memoryOk_congr ?dmem ?cfg).mpr
      (memoryOk_setDmem_modeLoop hs hok (f s.expandSchedule.sched (rounds s.ksel)) s.iv)
    case dmem => simp only [State.succeed_dmem, State.setDmem_dmem]
    case cfg => simp only [State.succeed_cfg, State.setDmem_cfg, State.expandSchedule_cfg]

theorem commandEffect_cfg {i : Instr} {s t : State} (h : CommandEffect i s t) : t.cfg = s.cfg := by
  cases h <;> simp

theorem commandEffect_dmem {i : Instr} {s t : State} (hi : isMode i = false) (h : CommandEffect i s t) :
    t.dmem = s.dmem := by
  cases h with
  | buffer hmode => simp [hmode] at hi
  | _ => simp

/-- A mode command writes inside its buffer, and no other command writes DMEM. -/
theorem exec_keeps_memoryOk {i : Instr} {s t : State} (hs : s.memoryOk) (h : exec i s = .next t) : t.memoryOk := by
  cases hi : isMode i with
  | true =>
    obtain ⟨f, hf⟩ := exec_mode hi s
    exact runMode_keeps_memoryOk hs (hf.symm.trans h)
  | false =>
    have he := commandEffect_of_exec h
    exact (memoryOk_congr (commandEffect_dmem hi he) (commandEffect_cfg he)).mpr hs

theorem storeReg_dmem (s : State) (r : Reg) (v : Word) : (s.storeReg r v).dmem = s.dmem := by
  cases r <;> simp [State.storeReg]

theorem storeReg_cfg (s : State) (r : Reg) (v : Word) : (s.storeReg r v).cfg = s.cfg := by
  cases r <;> simp [State.storeReg]

theorem resetCore_dmem (s : State) : s.resetCore.dmem = s.dmem := by simp only [State.resetCore]

theorem resetCore_cfg (s : State) : s.resetCore.cfg = s.cfg := by simp only [State.resetCore]

theorem memoryOk_setDmem_write {s : State} (hs : s.memoryOk) {a : Nat} (ha : a < s.cfg.dmemBytes) (v : Byte) :
    (s.setDmem (s.dmem.write a v)).memoryOk := by
  obtain ⟨hwf, hlisted⟩ := hs
  refine memoryOk_setDmem_iff.mpr ⟨Memory.wf_write hwf a v, fun c hc => ?_⟩
  obtain ⟨rfl, _⟩ | hold := Memory.mem_write hc
  · exact ha
  · exact hlisted c hold

theorem hostOp_keeps_memoryOk (op : HostOp) (s t : State) (hs : s.memoryOk) (h : hostOp op s = .next t) :
    t.memoryOk := by
  obtain ⟨_, _, _, _, rfl⟩ | ⟨_, _, _, _, hrun⟩ | ⟨_, v, r, _, _, _, rfl⟩ | ⟨_, _, _, rfl⟩ |
    ⟨_, v, _, ha, rfl⟩ | ⟨_, rfl⟩ := hostOp_cases h
  · exact hs
  · obtain ⟨_, rfl⟩ | ⟨_, rfl⟩ | ⟨_, _, _, he⟩ := runCommand_cases hrun
    · exact hs
    · exact hs
    · exact exec_keeps_memoryOk hs he
  · exact (memoryOk_congr (storeReg_dmem s r v) (storeReg_cfg s r v)).mpr hs
  · exact hs
  · exact memoryOk_setDmem_write hs ha v
  · exact (memoryOk_congr (resetCore_dmem s) (resetCore_cfg s)).mpr hs

/-- Settles O13: DMEM is written by the mode commands, inside a checked buffer, and by the host, below `DMEM_BYTES`. -/
theorem memoryCanonicalKept : Obligations.MemoryCanonicalKept :=
  fun _ _ => step_keeps (fun _ _ h => h) hostOp_keeps_memoryOk

/-! ### Host accesses -/

/-- Settles O53: below `DMEM_BYTES` the two accesses are answered, and a read after a write is `Memory.read_write`. -/
theorem dmemAccesses : Obligations.DmemAccesses :=
  fun s a ha => ⟨if_pos ha, fun v => ⟨_, if_pos ha, rfl, Memory.read_write s.dmem a v⟩⟩

end Sys2Proof.Machine

/-!
PROOF. The encoding (30_encoding.md R71 to R74). A word decodes exactly when it is the word of a well-formed command;
the opcode table and the list of illegal words follow from that by looking at the four fields of the word.
-/

namespace Sys2Proof.Machine

/-! ### The decoder inverts the encoder -/

theorem decodeUnary_eq_ok {w : Word} {f : Byte → Instr} {i : Instr} :
    decodeUnary w f = .ok i ↔ fieldB w = 0 ∧ f (fieldA w) = i := by
  unfold decodeUnary
  split <;> simp_all

theorem decodeBare_eq_ok {w : Word} {j i : Instr} :
    decodeBare w j = .ok i ↔ fieldB w = 0 ∧ fieldA w = 0 ∧ j = i := by
  unfold decodeBare
  split
  · simp_all
  · split <;> simp_all

theorem decode_encode {i : Instr} (hi : i.wellFormed = true) : decode (encode i) = .ok i := by
  cases i with
  | gfmul a b => simp [decode, encode, Instr.opcode]
  | gfinv a | sbox a | isbox a => simp [decode, encode, Instr.opcode, decodeUnary]
  | addroundkey n =>
    have hn : n % 256 = n := Nat.mod_eq_of_lt (by simpa [Instr.wellFormed] using hi)
    simp [decode, encode, Instr.opcode, decodeUnary, hn]
  | _ => rfl

/-- The word of a command, from the word's own fields. -/
theorem encode_eq_of_fields {w : Word} {i : Instr} {a b : Byte} (hz : fieldZ w = 0)
    (hop : (fieldOp w).toNat = i.opcode.toNat) (ha : fieldA w = a) (hb : fieldB w = b) :
    commandWord i.opcode a b = w := by
  rw [← ha, ← hb, ← BitVec.eq_of_toNat_eq hop, commandWord_fields w hz]

/-- One case per arm of the decoder, numbered in its order: arm 2 is GFMUL, arms 3 to 5 and 12 are the commands with the
operand `a` alone, arm 20 rejects, and the others are commands without operands. -/
theorem encode_of_decode {w : Word} {i : Instr} (h : decode w = .ok i) : i.wellFormed = true ∧ encode i = w := by
  unfold decode at h
  split at h
  · cases h
  · rename_i hz
    have hz : fieldZ w = 0 := not_not.mp hz
    split at h
    case h_2 hop =>
      cases h
      exact ⟨rfl, encode_eq_of_fields hz hop rfl rfl⟩
    case h_12 hop =>
      obtain ⟨hb, rfl⟩ := decodeUnary_eq_ok.mp h
      have hw : commandWord 0x16 (fieldA w) 0 = w := encode_eq_of_fields (i := .addroundkey 0) hz hop rfl hb
      exact ⟨by simp [Instr.wellFormed, (fieldA w).isLt], by simpa [encode, Instr.opcode] using hw⟩
    case h_3 hop | h_4 hop | h_5 hop =>
      obtain ⟨hb, rfl⟩ := decodeUnary_eq_ok.mp h
      exact ⟨rfl, encode_eq_of_fields hz hop rfl hb⟩
    case h_20 => cases h
    all_goals
      rename_i hop
      obtain ⟨hb, ha, rfl⟩ := decodeBare_eq_ok.mp h
      exact ⟨rfl, encode_eq_of_fields hz hop ha hb⟩

theorem decode_eq_ok_iff {w : Word} {i : Instr} : decode w = .ok i ↔ i.wellFormed = true ∧ encode i = w :=
  ⟨encode_of_decode, fun ⟨hi, hw⟩ => hw ▸ decode_encode hi⟩

/-- Settles O1: the fields of an encoded word are the opcode and the operands. -/
theorem decodeEncodeRoundTrip : Obligations.DecodeEncodeRoundTrip :=
  fun _ => decode_encode

/-- Settles O2: an accepted word is rebuilt from its fields, the unused ones being zero. -/
theorem encodeDecodeRoundTrip : Obligations.EncodeDecodeRoundTrip :=
  fun _ _ => encode_of_decode

/-- Settles O5, by evaluation of the decoder. -/
theorem sampleWordsDecode : Obligations.SampleWordsDecode := by
  unfold Obligations.SampleWordsDecode
  decide

/-! ### Legal words, by their fields (R74) -/

/-- The opcodes of R73. -/
def assignedOpcodes : List Byte :=
  [0x00, 0x01, 0x02, 0x03, 0x04, 0x10, 0x11, 0x12, 0x13, 0x14, 0x15, 0x16, 0x20, 0x30, 0x31, 0x40, 0x41, 0x42, 0x43]

/-- The opcodes of the commands that use the field `a` (R73). -/
def operandOpcodes : List Byte := [0x01, 0x02, 0x03, 0x04, 0x16]

/-- None of the three cases of R74 applies to a word with these fields. -/
structure LegalFields (op a b z : Byte) : Prop where
  opcode_assigned : op ∈ assignedOpcodes
  top_zero : z = 0
  b_unused : b = 0 ∨ op = 0x01
  a_unused : a = 0 ∨ op ∈ operandOpcodes

/-- One command per opcode, its operands zero. -/
def commandsWithZeroOperands : List Instr :=
  [.nop, .gfmul 0 0, .gfinv 0, .sbox 0, .isbox 0, .subbytes, .invsubbytes, .shiftrows, .invshiftrows, .mixcolumns,
    .invmixcolumns, .addroundkey 0, .expandkey, .encblk, .decblk, .ecbenc, .ecbdec, .cbcenc, .cbcdec]

theorem exists_encode_eq_zero_operands : ∀ op ∈ assignedOpcodes, ∃ i ∈ commandsWithZeroOperands,
    i.wellFormed = true ∧ encode i = commandWord op 0 0 := by decide

/-- Fields that R74 allows are those of a command: GFMUL, a command with the operand `a`, or one without operands. -/
theorem exists_encode_of_legalFields {op a b z : Byte} (h : LegalFields op a b z) :
    ∃ i : Instr, i.wellFormed = true ∧ encode i = commandWord op a b := by
  obtain ⟨hop, -, rfl | rfl, ha⟩ := h
  · obtain rfl | ha := ha
    · obtain ⟨i, -, hi⟩ := exists_encode_eq_zero_operands op hop
      exact ⟨i, hi⟩
    · simp only [operandOpcodes, List.mem_cons, List.not_mem_nil, or_false] at ha
      obtain rfl | rfl | rfl | rfl | rfl := ha
      · exact ⟨.gfmul a 0, rfl, rfl⟩
      · exact ⟨.gfinv a, rfl, rfl⟩
      · exact ⟨.sbox a, rfl, rfl⟩
      · exact ⟨.isbox a, rfl, rfl⟩
      · exact ⟨.addroundkey a.toNat, by simp [Instr.wellFormed, a.isLt], by simp [encode, Instr.opcode]⟩
  · exact ⟨.gfmul a b, rfl, rfl⟩

/-- The fields of a command's word are ones that R74 allows. -/
theorem legalFields_encode (i : Instr) :
    LegalFields (fieldOp (encode i)) (fieldA (encode i)) (fieldB (encode i)) (fieldZ (encode i)) := by
  cases i with
  | gfmul | gfinv | sbox | isbox | addroundkey =>
    constructor <;> simp [encode, Instr.opcode, assignedOpcodes, operandOpcodes]
  | _ => constructor <;> decide

theorem decodes_iff_legalFields {w : Word} :
    (∃ i, decode w = .ok i) ↔ LegalFields (fieldOp w) (fieldA w) (fieldB w) (fieldZ w) := by
  constructor
  · rintro ⟨i, hi⟩
    obtain ⟨-, rfl⟩ := encode_of_decode hi
    exact legalFields_encode i
  · intro h
    obtain ⟨i, hi, hw⟩ := exists_encode_of_legalFields h
    exact ⟨i, decode_eq_ok_iff.mpr ⟨hi, hw.trans (commandWord_fields w h.top_zero)⟩⟩

theorem illegal_iff_not_decodes {w : Word} : (∃ e, decode w = .error e) ↔ ¬ ∃ i, decode w = .ok i := by
  cases decode w <;> simp

/-- R74 as it is worded: the ways in which fields are not allowed. -/
theorem not_legalFields {op a b z : Byte} : ¬ LegalFields op a b z ↔
    op ∉ assignedOpcodes ∨ z ≠ 0 ∨ (b ≠ 0 ∧ op ≠ 0x01) ∨ (a ≠ 0 ∧ op ∉ operandOpcodes) := by
  have hdef : LegalFields op a b z ↔
      op ∈ assignedOpcodes ∧ z = 0 ∧ (b = 0 ∨ op = 0x01) ∧ (a = 0 ∨ op ∈ operandOpcodes) :=
    ⟨fun ⟨hop, hz, hb, ha⟩ => ⟨hop, hz, hb, ha⟩, fun ⟨hop, hz, hb, ha⟩ => ⟨hop, hz, hb, ha⟩⟩
  rw [hdef]
  tauto

/-- Settles O4: the words that do not decode, by their fields, and the error they raise. -/
theorem illegalWordsExactly : Obligations.IllegalWordsExactly := by
  refine ⟨fun w => ?words, fun w s ⟨e, hw⟩ hf => ?effect, fun w => ?nop, ?examples⟩
  case words => exact illegal_iff_not_decodes.trans ((not_congr decodes_iff_legalFields).trans not_legalFields)
  case effect => exact (hostRegWrite_cmd w s).trans (runCommand_illegal hf hw)
  case nop =>
    rw [decode_eq_ok_iff]
    exact ⟨fun ⟨_, hw⟩ => hw.symm, fun hw => ⟨rfl, hw.symm⟩⟩
  case examples =>
    simp only [List.forall_mem_cons]
    exact ⟨⟨_, rfl⟩, ⟨_, rfl⟩, ⟨_, rfl⟩, ⟨_, rfl⟩, by simp⟩

/-! ### The opcode table (R73) -/

theorem encodesTableRow (i : Instr) : Laws.EncodesTableRow.Statement i := by
  cases i with
  | nop => exact Laws.EncodesTableRow.nop
  | gfmul a b => exact Laws.EncodesTableRow.gfmul a b
  | gfinv a => exact Laws.EncodesTableRow.gfinv a
  | sbox a => exact Laws.EncodesTableRow.sbox a
  | isbox a => exact Laws.EncodesTableRow.isbox a
  | subbytes => exact Laws.EncodesTableRow.subbytes
  | invsubbytes => exact Laws.EncodesTableRow.invsubbytes
  | shiftrows => exact Laws.EncodesTableRow.shiftrows
  | invshiftrows => exact Laws.EncodesTableRow.invshiftrows
  | mixcolumns => exact Laws.EncodesTableRow.mixcolumns
  | invmixcolumns => exact Laws.EncodesTableRow.invmixcolumns
  | addroundkey n => exact Laws.EncodesTableRow.addroundkey n
  | expandkey => exact Laws.EncodesTableRow.expandkey
  | encblk => exact Laws.EncodesTableRow.encblk
  | decblk => exact Laws.EncodesTableRow.decblk
  | ecbenc => exact Laws.EncodesTableRow.ecbenc
  | ecbdec => exact Laws.EncodesTableRow.ecbdec
  | cbcenc => exact Laws.EncodesTableRow.cbcenc
  | cbcdec => exact Laws.EncodesTableRow.cbcdec

theorem row_match_of_decode {w : Word} {i : Instr} (h : decode w = .ok i) :
    ∃ r ∈ opcodeTable, r.mnemonic = i.mnemonic ∧ w &&& r.mask = r.bits := by
  obtain ⟨-, rfl⟩ := encode_of_decode h
  exact encodesTableRow i

/-- Two rows of the table differ in a bit that both fix. -/
theorem rows_disagree : ∀ r ∈ opcodeTable, ∀ q ∈ opcodeTable, r.bits &&& q.mask = q.bits &&& r.mask → r = q := by
  decide

theorem row_match_unique {w : Word} {r q : OpcodeRow} (hr : r ∈ opcodeTable) (hq : q ∈ opcodeTable)
    (hwr : w &&& r.mask = r.bits) (hwq : w &&& q.mask = q.bits) : r = q := by
  refine rows_disagree r hr q hq ?_
  rw [← hwr, ← hwq, BitVec.and_assoc, BitVec.and_assoc, BitVec.and_comm r.mask]

/-- Every row fixes `op` to an opcode, `z` to zero, and `a` and `b` to zero unless its command uses them. -/
theorem row_fields : ∀ r ∈ opcodeTable,
    (fieldOp r.mask = 0xFF ∧ fieldOp r.bits ∈ assignedOpcodes) ∧
    (fieldZ r.mask = 0xFF ∧ fieldZ r.bits = 0) ∧
    ((fieldB r.mask = 0xFF ∧ fieldB r.bits = 0) ∨ fieldOp r.bits = 0x01) ∧
    ((fieldA r.mask = 0xFF ∧ fieldA r.bits = 0) ∨ fieldOp r.bits ∈ operandOpcodes) := by
  decide

/-- A field that the row fixes is the row's. -/
theorem extractLsb'_eq_of_mask {w mask bits : Word} (h : w &&& mask = bits) {k : Nat}
    (hk : mask.extractLsb' k 8 = 0xFF) : w.extractLsb' k 8 = bits.extractLsb' k 8 := by
  rw [← h, BitVec.extractLsb'_and, hk]
  exact (BitVec.and_allOnes).symm

theorem legalFields_of_row_match {w : Word} {r : OpcodeRow} (hr : r ∈ opcodeTable) (h : w &&& r.mask = r.bits) :
    LegalFields (fieldOp w) (fieldA w) (fieldB w) (fieldZ w) := by
  obtain ⟨⟨hopMask, hop⟩, ⟨hzMask, hz⟩, hb, ha⟩ := row_fields r hr
  have hopEq : fieldOp w = fieldOp r.bits := extractLsb'_eq_of_mask h hopMask
  refine ⟨hopEq ▸ hop, (extractLsb'_eq_of_mask h hzMask).trans hz, ?_, ?_⟩
  · exact hb.imp (fun ⟨hm, hz⟩ => (extractLsb'_eq_of_mask h hm).trans hz) hopEq.trans
  · exact ha.imp (fun ⟨hm, hz⟩ => (extractLsb'_eq_of_mask h hm).trans hz) fun hmem => hopEq ▸ hmem

/-- Settles O3: a word that matches a row is legal, and the row of its command is that row. -/
theorem decodeMatchesOpcodeTable : Obligations.DecodeMatchesOpcodeTable := by
  refine ⟨fun _ _ => row_match_of_decode, fun w r hr hw => ?decodes, fun _ _ hr _ hq => row_match_unique hr hq⟩
  case decodes =>
    obtain ⟨i, hi⟩ := decodes_iff_legalFields.mpr (legalFields_of_row_match hr hw)
    obtain ⟨q, hq, hmnemonic, hwq⟩ := row_match_of_decode hi
    exact ⟨i, hi, by rw [row_match_unique hr hq hw hwq, hmnemonic]⟩

end Sys2Proof.Machine

/-!
PROOF. Running commands: the step on a word that decodes (30_encoding.md R70), and the sequences of single transforms
that ENCBLK and DECBLK stand for (R77). After its first ADDROUNDKEY such a sequence goes on changing nothing but S.
-/

namespace Sys2Proof.Machine

/-- Settles O6: the operation is a CMD write, FATAL does not stop it, and its word decodes. -/
theorem stepRunsDecodedCommand : Obligations.StepRunsDecodedCommand := by
  intro s w rest i hhost hf hw
  calc step s = hostOp (.regWrite 0x000 w) { s with host := rest } := step_pending hhost
    _ = runCommand w { s with host := rest } := hostRegWrite_cmd w _
    _ = exec i { s with host := rest } :=
      runCommand_decoded (s := { s with host := rest }) hf hw

theorem runCommands_append {is js : List Instr} {s t : State} (h : runCommands is s = .next t) :
    runCommands (is ++ js) s = runCommands js t := by
  induction is generalizing s with
  | nil =>
    cases h
    rfl
  | cons i is ih =>
    obtain ⟨u, hu, -⟩ := exec_effect i s
    simp only [runCommands, hu, List.cons_append] at h ⊢
    exact ih h

/-- From `s` after any transform of S, the commands apply `g` to S and do nothing else. -/
def Computes (s : State) (is : List Instr) (g : Block → Block) : Prop :=
  ∀ f, runCommands is (s.transform f) = .next (s.transform fun b => g (f b))

theorem computes_nil (s : State) : Computes s [] fun b => b := fun _ => rfl

theorem computes_single {s : State} {i : Instr} {g : Block → Block}
    (h : ∀ f, exec i (s.transform f) = .next ((s.transform f).transform g)) : Computes s [i] g := by
  intro f
  simp only [runCommands, h]
  rfl

theorem Computes.append {s : State} {is js : List Instr} {g h : Block → Block} (hg : Computes s is g)
    (hh : Computes s js h) : Computes s (is ++ js) fun b => h (g b) :=
  fun f => (runCommands_append (hg f)).trans (hh _)

/-- After a command that transforms S, the commands of `Computes` transform S further. -/
theorem runCommands_cons_transform {s : State} {i : Instr} {is : List Instr} {f g : Block → Block}
    (hi : exec i s = .next (s.transform f)) (his : Computes s is g) :
    runCommands (i :: is) s = .next (s.transform fun b => g (f b)) := by
  simp only [runCommands, hi]
  exact his f

/-! ### The pseudo-commands of R77, under a valid schedule -/

section ValidSchedule

variable {s : State} (hs : s.status.schedValid = true) {n : Nat}

include hs

theorem exec_addroundkey (hn : n ≤ rounds s.ksel) :
    exec (.addroundkey n) s = .next (s.transform fun b => addRoundKey b s.sched n) := by
  simp [exec, execAddroundkey, hs, hn]

theorem computes_addroundkey (hn : n ≤ rounds s.ksel) :
    Computes s [.addroundkey n] fun b => addRoundKey b s.sched n :=
  computes_single fun f => exec_addroundkey (s := s.transform f) hs hn

theorem computes_pseudoFinalRound (hn : n ≤ rounds s.ksel) :
    Computes s (pseudoFinalRound n) fun b => addRoundKey (shiftRows (subBytes b)) s.sched n :=
  have hsub : Computes s [.subbytes] subBytes := computes_single fun _ => rfl
  have hshift : Computes s [.shiftrows] shiftRows := computes_single fun _ => rfl
  (hsub.append hshift).append (computes_addroundkey hs hn)

theorem computes_pseudoRound (hn : n ≤ rounds s.ksel) :
    Computes s (pseudoRound n) fun b => addRoundKey (mixColumns (shiftRows (subBytes b))) s.sched n :=
  have hsub : Computes s [.subbytes] subBytes := computes_single fun _ => rfl
  have hshift : Computes s [.shiftrows] shiftRows := computes_single fun _ => rfl
  have hmix : Computes s [.mixcolumns] mixColumns := computes_single fun _ => rfl
  ((hsub.append hshift).append hmix).append (computes_addroundkey hs hn)

/-- INVROUND `n` but for its last command, which INVFINALROUND leaves out. -/
theorem computes_invRoundStart (hn : n ≤ rounds s.ksel) :
    Computes s [.invshiftrows, .invsubbytes, .addroundkey n]
      fun b => addRoundKey (invSubBytes (invShiftRows b)) s.sched n :=
  have hshift : Computes s [.invshiftrows] invShiftRows := computes_single fun _ => rfl
  have hsub : Computes s [.invsubbytes] invSubBytes := computes_single fun _ => rfl
  (hshift.append hsub).append (computes_addroundkey hs hn)

theorem computes_pseudoInvRound (hn : n ≤ rounds s.ksel) :
    Computes s (pseudoInvRound n) fun b => invMixColumns (addRoundKey (invSubBytes (invShiftRows b)) s.sched n) :=
  have hmix : Computes s [.invmixcolumns] invMixColumns := computes_single fun _ => rfl
  (computes_invRoundStart hs hn).append hmix

/-- `ROUND 1` to `ROUND n` are the loop of the forward cipher (R140). -/
theorem computes_rounds (hn : n ≤ rounds s.ksel) :
    Computes s ((List.range n).flatMap fun k => pseudoRound (k + 1)) (forwardRounds s.sched n) := by
  induction n with
  | zero => exact computes_nil s
  | succ n ih =>
    rw [List.range_succ, List.flatMap_append, List.flatMap_singleton]
    exact (ih (by omega)).append (computes_pseudoRound hs hn)

/-- `INVROUND n` down to `INVROUND 1` are the loop of the inverse cipher (R141). -/
theorem computes_invRounds (hn : n ≤ rounds s.ksel) :
    Computes s ((List.range n).flatMap fun k => pseudoInvRound (n - k)) (inverseRounds s.sched n) := by
  induction n with
  | zero => exact computes_nil s
  | succ n ih =>
    rw [List.range_succ_eq_map, List.flatMap_cons, List.flatMap_map]
    simp only [Nat.succ_eq_add_one, Nat.add_sub_add_right]
    exact (computes_pseudoInvRound hs hn).append (ih (by omega))

theorem runCommands_encblkSequence : runCommands (encblkSequence (rounds s.ksel)) s = exec .encblk s := by
  have hexec : exec .encblk s = .next (s.transform fun b => forwardCipher b s.sched (rounds s.ksel)) := by
    simp [exec, execEncblk, hs]
  rw [hexec]
  exact runCommands_cons_transform (exec_addroundkey hs (Nat.zero_le _))
    ((computes_rounds hs (Nat.sub_le _ 1)).append (computes_pseudoFinalRound hs (Nat.le_refl _)))

theorem runCommands_decblkSequence : runCommands (decblkSequence (rounds s.ksel)) s = exec .decblk s := by
  have hexec : exec .decblk s = .next (s.transform fun b => inverseCipher b s.sched (rounds s.ksel)) := by
    simp [exec, execDecblk, hs]
  rw [hexec]
  exact runCommands_cons_transform (exec_addroundkey hs (Nat.le_refl _))
    ((computes_invRounds hs (Nat.sub_le _ 1)).append (computes_invRoundStart hs (Nat.zero_le _)))

end ValidSchedule

/-- Settles O44: after the first ADDROUNDKEY the rounds of each sequence are the rounds of its cipher. -/
theorem blockCommandsEqualSequences : Obligations.BlockCommandsEqualSequences :=
  fun _ hs => ⟨runCommands_encblkSequence hs, runCommands_decblkSequence hs⟩

end Sys2Proof.Machine

/-!
PROOF. The field (40_field_arithmetic.md R90 to R96). A map that is additive and commutes with doubling commutes with
multiplication by a fixed byte; the ring laws follow from this alone. The table of inverses then gives a field.
-/

namespace Sys2Proof.Machine

/-! ### Additive maps that commute with doubling -/

theorem xtime_eq_xor (a : Byte) : xtime a = a <<< 1 ^^^ if a.msb then 0x1B else 0 := by
  rw [xtime]
  split
  · rfl
  · exact BitVec.xor_zero.symm

theorem xtime_xor (a b : Byte) : xtime (a ^^^ b) = xtime a ^^^ xtime b := by
  have hshift : (a ^^^ b) <<< 1 = a <<< 1 ^^^ b <<< 1 := BitVec.shiftLeft_xor_distrib ..
  have hreduce : ∀ c d : Bool, (if c ^^ d then (0x1B : Byte) else 0) =
      (if c then 0x1B else 0) ^^^ if d then 0x1B else 0 := by decide
  rw [xtime_eq_xor, xtime_eq_xor, xtime_eq_xor, BitVec.msb_xor, hshift, hreduce]
  ac_rfl

/-- `φ` is linear over the bytes, as far as sums and the product by x say (R90, R91). -/
structure DoublingLinear (φ : Byte → Byte) : Prop where
  map_xor : ∀ a b, φ (a ^^^ b) = φ a ^^^ φ b
  map_xtime : ∀ a, φ (xtime a) = xtime (φ a)

theorem DoublingLinear.map_zero {φ : Byte → Byte} (hφ : DoublingLinear φ) : φ 0 = 0 := by
  simpa using hφ.map_xor 0 0

theorem DoublingLinear.map_multiplyLoop {φ : Byte → Byte} (hφ : DoublingLinear φ) (n : Nat) (a b acc : Byte) :
    φ (multiplyLoop n a b acc) = multiplyLoop n (φ a) b (φ acc) := by
  induction n generalizing a b acc with
  | zero => rfl
  | succ n ih =>
    rw [multiplyLoop, multiplyLoop, ih, hφ.map_xtime, apply_ite φ, hφ.map_xor]

theorem DoublingLinear.map_multiply {φ : Byte → Byte} (hφ : DoublingLinear φ) (a b : Byte) :
    φ (multiply a b) = multiply (φ a) b := by
  rw [multiply, hφ.map_multiplyLoop, hφ.map_zero, multiply]

theorem doublingLinear_xtime : DoublingLinear xtime := ⟨xtime_xor, fun _ => rfl⟩

theorem multiplyLoop_xor (n : Nat) (a a' b acc acc' : Byte) :
    multiplyLoop n (a ^^^ a') b (acc ^^^ acc') = multiplyLoop n a b acc ^^^ multiplyLoop n a' b acc' := by
  induction n generalizing a a' b acc acc' with
  | zero => rfl
  | succ n ih =>
    simp only [multiplyLoop, xtime_xor, ← ih]
    congr 1
    split
    · ac_rfl
    · rfl

theorem doublingLinear_multiply (b : Byte) : DoublingLinear fun a => multiply a b where
  map_xor a a' := multiplyLoop_xor 8 a a' b 0 0
  map_xtime a := (doublingLinear_xtime.map_multiply a b).symm

/-! ### The ring laws (R96) -/

theorem multiply_right_comm (a b c : Byte) : multiply (multiply a b) c = multiply (multiply a c) b :=
  (doublingLinear_multiply c).map_multiply a b

/-- The loop rebuilds `b` from its bits, since its doublings of 1 push no bit out of the byte. -/
theorem one_multiply : ∀ b : Byte, multiply 1 b = b := by decide

/-- `multiply_right_comm` at `a = 1`. -/
theorem multiply_comm (a b : Byte) : multiply a b = multiply b a := by
  simpa only [one_multiply] using multiply_right_comm 1 a b

theorem multiply_assoc (a b c : Byte) : multiply (multiply a b) c = multiply a (multiply b c) := by
  rw [multiply_comm a b, multiply_right_comm, multiply_comm _ a]

theorem multiply_one (a : Byte) : multiply a 1 = a := (multiply_comm a 1).trans (one_multiply a)

theorem multiply_xor (a b c : Byte) : multiply a (b ^^^ c) = multiply a b ^^^ multiply a c := by
  simp only [multiply_comm a]
  exact (doublingLinear_multiply a).map_xor b c

theorem zero_multiply (a : Byte) : multiply 0 a = 0 := (doublingLinear_multiply a).map_zero

theorem multiply_zero (a : Byte) : multiply a 0 = 0 := (multiply_comm a 0).trans (zero_multiply a)

theorem multiply_two (a : Byte) : multiply a 2 = xtime a :=
  calc multiply a 2 = multiply (xtime 1) a := multiply_comm a 2
    _ = xtime (multiply 1 a) := (doublingLinear_multiply a).map_xtime 1
    _ = xtime a := congrArg xtime (one_multiply a)

theorem multiply_three (a : Byte) : multiply a 3 = xtime a ^^^ a :=
  calc multiply a 3 = multiply a 2 ^^^ multiply a 1 := multiply_xor a 2 1
    _ = xtime a ^^^ a := congrArg₂ _ (multiply_two a) (multiply_one a)

/-! ### Inverses (R93, R96) -/

theorem inverse_zero : inverse 0 = 0 := by decide

/-- Every entry of the table of inverses is right. -/
theorem multiply_inverse : ∀ a : Byte, a ≠ 0 → multiply a (inverse a) = 1 := by decide

theorem inverse_multiply_cancel {a : Byte} (ha : a ≠ 0) (x : Byte) : multiply (inverse a) (multiply a x) = x := by
  rw [← multiply_assoc, multiply_comm (inverse a), multiply_inverse a ha, one_multiply]

theorem eq_zero_or_eq_zero_of_multiply {a b : Byte} (h : multiply a b = 0) : a = 0 ∨ b = 0 := by
  refine or_iff_not_imp_left.mpr fun ha => ?_
  rw [← inverse_multiply_cancel ha b, h, multiply_zero]

theorem ne_zero_of_multiply_eq_one {a x : Byte} (h : multiply a x = 1) : a ≠ 0 := by
  rintro rfl
  exact absurd ((zero_multiply x).symm.trans h) (by decide)

theorem eq_inverse_of_multiply_eq_one {a x : Byte} (h : multiply a x = 1) : x = inverse a := by
  rw [← inverse_multiply_cancel (ne_zero_of_multiply_eq_one h) x, h, multiply_one]

theorem inverse_ne_zero {a : Byte} (ha : a ≠ 0) : inverse a ≠ 0 :=
  ne_zero_of_multiply_eq_one ((multiply_comm _ _).trans (multiply_inverse a ha))

theorem inverse_inverse (a : Byte) : inverse (inverse a) = a := by
  by_cases ha : a = 0
  · rw [ha, inverse_zero, inverse_zero]
  · exact (eq_inverse_of_multiply_eq_one ((multiply_comm _ _).trans (multiply_inverse a ha))).symm

theorem find?_multiply_eq_one {a : Byte} (ha : a ≠ 0) {xs : List Byte} (hxs : inverse a ∈ xs) :
    (xs.find? fun x => multiply a x == 1) = some (inverse a) := by
  cases hfind : xs.find? fun x => multiply a x == 1 with
  | none =>
    have hnone := List.find?_eq_none.mp hfind (inverse a) hxs
    rw [multiply_inverse a ha] at hnone
    exact absurd rfl hnone
  | some x =>
    have hx : multiply a x = 1 := by simpa only [beq_iff_eq] using List.find?_some hfind
    rw [eq_inverse_of_multiply_eq_one hx]

/-- The search of R93 goes over every non-zero byte. -/
theorem mem_searchRange {x : Byte} (hx : x ≠ 0) : x ∈ (List.range 255).map fun k => BitVec.ofNat 8 (k + 1) := by
  have hpos : x.toNat ≠ 0 := fun h => hx (BitVec.eq_of_toNat_eq h)
  have hlt : x.toNat - 1 < 255 := Nat.pred_lt_pred hpos x.isLt
  refine List.mem_map.mpr ⟨x.toNat - 1, List.mem_range.mpr hlt, ?_⟩
  rw [Nat.sub_add_cancel (Nat.pos_of_ne_zero hpos), BitVec.ofNat_toNat, BitVec.setWidth_eq]

theorem inverse_eq_inverseSearch (a : Byte) : inverse a = inverseSearch a := by
  by_cases ha : a = 0
  · rw [ha, inverse_zero, inverseSearch, if_pos rfl]
  · rw [inverseSearch, if_neg ha, find?_multiply_eq_one ha (mem_searchRange (inverse_ne_zero ha)), Option.getD_some]

/-- Settles O34: the ring laws from linearity, the rest from them and the table of inverses. -/
theorem fieldLaws : Obligations.FieldLaws :=
  ⟨multiply_comm, multiply_inverse, multiply_xor, multiply_assoc, fun _ _ => eq_inverse_of_multiply_eq_one,
    fun _ _ => eq_zero_or_eq_zero_of_multiply, fun a => ⟨one_multiply a, multiply_one a⟩, inverse_zero⟩

/-- Settles O35: only `inverse a` answers the search. -/
theorem inverseIsTheSearch : Obligations.InverseIsTheSearch := by
  refine ⟨inverse_eq_inverseSearch, fun a x ha => ?unique, inverse_inverse, ?examples⟩
  case unique => exact ⟨eq_inverse_of_multiply_eq_one, fun hx => hx ▸ multiply_inverse a ha⟩
  case examples => decide

/-! ### The product of polynomials (R90, R92) -/

/-- `polyMul` with the first `n` coefficients of its second factor. -/
def polySum (n a b : Nat) : Nat :=
  (List.range n).foldl (fun acc k => if b.testBit k then acc ^^^ (a <<< k) else acc) 0

theorem polyMul_eq_polySum (a b : Nat) : polyMul a b = polySum 8 a b := rfl

theorem polySum_succ (n a b : Nat) :
    polySum (n + 1) a b = polySum n a b ^^^ if b.testBit n then a <<< n else 0 := by
  rw [polySum, List.range_succ, List.foldl_append, ← polySum, List.foldl_cons, List.foldl_nil]
  split
  · rfl
  · exact (Nat.xor_zero _).symm

/-- The lowest coefficient of the second factor apart, as in Horner's rule. -/
theorem polySum_succ_low (n a b : Nat) :
    polySum (n + 1) a b = (if b.testBit 0 then a else 0) ^^^ (polySum n a (b >>> 1)) <<< 1 := by
  induction n with
  | zero => simp [polySum]
  | succ n ih =>
    have hbit : (b >>> 1).testBit n = b.testBit (n + 1) := by rw [Nat.testBit_shiftRight, Nat.add_comm]
    have hshift : (if b.testBit (n + 1) then a <<< n else 0) <<< 1 =
        if b.testBit (n + 1) then a <<< (n + 1) else 0 := by
      split
      · exact (Nat.shiftLeft_add a n 1).symm
      · rfl
    rw [polySum_succ, ih, polySum_succ, Nat.shiftLeft_xor_distrib, hbit, hshift, Nat.xor_assoc]

theorem multiplyLoop_acc (n : Nat) (a b acc : Byte) : multiplyLoop n a b acc = acc ^^^ multiplyLoop n a b 0 := by
  induction n generalizing a b acc with
  | zero => exact BitVec.xor_zero.symm
  | succ n ih =>
    rw [multiplyLoop, multiplyLoop, ih, ih (xtime a) (b >>> 1) (if b.getLsbD 0 then 0 ^^^ a else 0)]
    split <;> simp [BitVec.xor_assoc]

/-- The loop of R92 in the order of Horner's rule. -/
theorem multiplyLoop_succ_low (n : Nat) (a b : Byte) :
    multiplyLoop (n + 1) a b 0 = (if b.getLsbD 0 then a else 0) ^^^ xtime (multiplyLoop n a (b >>> 1) 0) := by
  have hzero : 0 ^^^ a = a := BitVec.zero_xor
  rw [multiplyLoop, multiplyLoop_acc, doublingLinear_xtime.map_multiplyLoop, doublingLinear_xtime.map_zero, hzero]

/-- Doubling subtracts 0x11B from the shifted byte when bit 8 comes out (R91). -/
theorem toNat_shiftLeft_eq_xtime : ∀ a : Byte, a.toNat <<< 1 = (if a.msb then 0x11B else 0) ^^^ (xtime a).toNat := by
  decide

/-- Both sides by Horner's rule: the bit that the last doubling pushes out is the lowest one of the new quotient. -/
theorem polySum_eq_multiplyLoop (n : Nat) (a b : Byte) :
    ∃ q, q < 2 ^ n ∧ polySum n a.toNat b.toNat = polySum n 0x11B q ^^^ (multiplyLoop n a b 0).toNat := by
  induction n generalizing b with
  | zero => exact ⟨0, Nat.one_pos, by simp [polySum, multiplyLoop]⟩
  | succ n ih =>
    obtain ⟨q, hq, hsum⟩ := ih (b >>> 1)
    generalize hm : multiplyLoop n a (b >>> 1) 0 = m at hsum
    refine ⟨Nat.bit m.msb q, ?bound, ?sum⟩
    case bound =>
      have hbit := Bool.toNat_le m.msb
      rw [Nat.pow_succ, Nat.bit_val]
      omega
    case sum =>
      have hquot : polySum (n + 1) 0x11B (Nat.bit m.msb q) =
          (if m.msb then 0x11B else 0) ^^^ polySum n 0x11B q <<< 1 := by
        rw [polySum_succ_low, Nat.testBit_bit_zero, Nat.bit_shiftRight_one]
      have hvalue : (multiplyLoop (n + 1) a b 0).toNat =
          (if b.toNat.testBit 0 then a.toNat else 0) ^^^ (xtime m).toNat := by
        rw [multiplyLoop_succ_low, hm, BitVec.toNat_xor, apply_ite BitVec.toNat]
        rfl
      rw [hquot, hvalue, polySum_succ_low, ← BitVec.toNat_ushiftRight, hsum, Nat.shiftLeft_xor_distrib,
        toNat_shiftLeft_eq_xtime]
      ac_rfl

/-- Settles O33: the quotient is built from the bits that doubling pushes out. -/
theorem multiplyIsPolynomialProduct : Obligations.MultiplyIsPolynomialProduct := by
  intro a b
  obtain ⟨q, hq, hsum⟩ := polySum_eq_multiplyLoop 8 a b
  refine ⟨BitVec.ofNatLT q hq, ?_⟩
  rw [polyMul_eq_polySum, polyMul_eq_polySum, BitVec.toNat_ofNatLT, hsum, multiply]

/-! ### The commands (R94, R95) -/

/-- Settles O21: the words by the decoder, the illegal ones by O4, and RES by the frame O18. -/
theorem fieldCommandResults : Obligations.FieldCommandResults := by
  refine ⟨fun _ _ _ => rfl, fun _ _ => rfl, ?gfmulWord, ?gfinvWord, ?keepsRes, ?topByte, ?gfinvB, ?fatal, ?corners,
    ?examples⟩
  case gfmulWord => exact fun a b => decode_encode (i := .gfmul a b) rfl
  case gfinvWord =>
    intro a
    have hword : encode (.gfinv a) = 0x00000002 ||| (a.setWidth 32 <<< 8) := BitVec.or_zero
    exact hword ▸ decode_encode (i := .gfinv a) rfl
  case keepsRes =>
    intro i s t hi h
    obtain ⟨-, -, hres, -⟩ := commandFrame i s t h
    exact hres hi
  case topByte => exact fun w hz => (illegalWordsExactly.1 w).mpr (.inr (.inl hz))
  case gfinvB =>
    intro w hop hb
    have hne : fieldOp w ≠ 0x01 := by
      rw [hop]
      decide
    exact (illegalWordsExactly.1 w).mpr (.inr (.inr (.inl ⟨hb, hne⟩)))
  case fatal => exact fun w s hf => runCommand_fatal hf w
  case corners =>
    exact fun a => ⟨multiply_zero a, zero_multiply a, multiply_one a, one_multiply a, multiply_two a, multiply_three a⟩
  case examples => decide

end Sys2Proof.Machine

/-!
PROOF. The S-boxes (41_sbox.md R100 to R104). Each is `inverse` and one affine map of the bits; the two affine maps are
inverse to each other, and so are the S-boxes, because `inverse` undoes itself.
-/

namespace Sys2Proof.Machine

/-! ### The affine steps -/

/-- The affine step of R100, after the inversion. -/
def forwardAffine (v : Byte) : Byte := v ^^^ rotl8 v 1 ^^^ rotl8 v 2 ^^^ rotl8 v 3 ^^^ rotl8 v 4 ^^^ 0x63#8

/-- The affine step of R101, before the inversion. -/
def inverseAffine (y : Byte) : Byte := rotl8 y 1 ^^^ rotl8 y 3 ^^^ rotl8 y 6 ^^^ 0x05#8

theorem forwardSbox_eq (x : Byte) : forwardSbox x = forwardAffine (inverse x) := rfl

theorem inverseSbox_eq (y : Byte) : inverseSbox y = inverse (inverseAffine y) := rfl

/-- Of the fifteen rotations of `v` fourteen cancel in pairs, and the constants cancel too. -/
theorem inverseAffine_forwardAffine : ∀ v : Byte, inverseAffine (forwardAffine v) = v := by decide

/-! ### By rotations and bit by bit -/

theorem rotl8_eq_rotateLeft (v : Byte) {n : Nat} (hn : n < 8) : rotl8 v n = v.rotateLeft n := by
  rw [BitVec.rotateLeft, Nat.mod_eq_of_lt hn]
  rfl

/-- R100's `rotl8(v,n)[i] == v[(i-n) mod 8]`. -/
theorem getLsbD_rotl8 (v : Byte) {n i : Nat} (hn : n < 8) (hi : i < 8) :
    (rotl8 v n).getLsbD i = v.getLsbD ((i + (8 - n)) % 8) := by
  rw [rotl8_eq_rotateLeft v hn, BitVec.getLsbD_rotateLeft, Nat.mod_eq_of_lt hn]
  by_cases hlow : i < n
  · rw [decide_eq_true hlow, cond_true, show (i + (8 - n)) % 8 = 8 - n + i by omega]
  · rw [decide_eq_false hlow, cond_false, decide_eq_true hi, Bool.true_and, show (i + (8 - n)) % 8 = i - n by omega]

theorem getLsbD_forwardAffine (v : Byte) {i : Nat} (hi : i < 8) : (forwardAffine v).getLsbD i =
    (v.getLsbD i ^^ v.getLsbD ((i + 7) % 8) ^^ v.getLsbD ((i + 6) % 8) ^^ v.getLsbD ((i + 5) % 8) ^^
      v.getLsbD ((i + 4) % 8) ^^ (0x63#8).getLsbD i) := by
  simp only [forwardAffine, BitVec.getLsbD_xor, getLsbD_rotl8, hi, Nat.reduceLT, Nat.reduceSub]

theorem getLsbD_inverseAffine (y : Byte) {i : Nat} (hi : i < 8) : (inverseAffine y).getLsbD i =
    (y.getLsbD ((i + 7) % 8) ^^ y.getLsbD ((i + 5) % 8) ^^ y.getLsbD ((i + 2) % 8) ^^ (0x05#8).getLsbD i) := by
  simp only [inverseAffine, BitVec.getLsbD_xor, getLsbD_rotl8, hi, Nat.reduceLT, Nat.reduceSub]

/-- Settles O36: the formulas of the two affine steps. -/
theorem sboxFormulas : Obligations.SboxFormulas := by
  refine ⟨?forwardRotations, fun x i => getLsbD_forwardAffine (inverse x) i.isLt, ?inverseRotations, ?inverseBits,
    ?examples⟩
  case forwardRotations =>
    rintro x v rfl
    simp [forwardSbox, rotl8_eq_rotateLeft]
  case inverseRotations =>
    rintro y t rfl
    simp [inverseSbox, rotl8_eq_rotateLeft]
  case inverseBits =>
    intro y t ht
    have hbits : inverseAffine y = t := BitVec.eq_of_getLsbD_eq fun i hi =>
      (getLsbD_inverseAffine y hi).trans (ht ⟨i, hi⟩).symm
    rw [inverseSbox_eq, hbits]
  case examples => decide

/-! ### Inverse bijections (R104) -/

theorem inverseSbox_forwardSbox (x : Byte) : inverseSbox (forwardSbox x) = x := by
  rw [inverseSbox_eq, forwardSbox_eq, inverseAffine_forwardAffine, inverse_inverse]

/-- An injective map of the finitely many bytes to themselves is onto. -/
theorem forwardSbox_bijective : Function.Bijective forwardSbox :=
  Finite.injective_iff_bijective.mp (Function.LeftInverse.injective inverseSbox_forwardSbox)

theorem forwardSbox_inverseSbox : ∀ y : Byte, forwardSbox (inverseSbox y) = y :=
  Function.LeftInverse.rightInverse_of_surjective inverseSbox_forwardSbox forwardSbox_bijective.surjective

theorem inverseSbox_bijective : Function.Bijective inverseSbox :=
  Function.bijective_iff_has_inverse.mpr ⟨forwardSbox, forwardSbox_inverseSbox, inverseSbox_forwardSbox⟩

/-- Read off the values of the S-box, as R104 does from table T4. -/
theorem forwardSbox_ne : ∀ x : Byte, forwardSbox x ≠ x ∧ forwardSbox x ≠ x ^^^ 0xFF := by decide

/-- Settles O37: the second S-box undoes the first, which makes both bijections; that no byte is fixed or complemented
is read off the values. -/
theorem sboxesAreInverse : Obligations.SboxesAreInverse :=
  ⟨inverseSbox_forwardSbox, forwardSbox_inverseSbox, forwardSbox_ne, forwardSbox_bijective, inverseSbox_bijective⟩

/-! ### The commands (R102, R103) -/

theorem encode_sbox (a : Byte) : encode (.sbox a) = 0x00000003 ||| (a.setWidth 32 <<< 8) := BitVec.or_zero

theorem encode_isbox (a : Byte) : encode (.isbox a) = 0x00000004 ||| (a.setWidth 32 <<< 8) := BitVec.or_zero

/-- Settles O22: the words by the decoder, the illegal ones by O4. -/
theorem sboxCommandResults : Obligations.SboxCommandResults := by
  refine ⟨fun _ _ => rfl, fun _ _ => rfl, fun a => ?sboxWord, fun a => ?isboxWord, ?illegal, ?fatal, ?examples⟩
  case sboxWord => exact encode_sbox a ▸ decode_encode (i := .sbox a) rfl
  case isboxWord => exact encode_isbox a ▸ decode_encode (i := .isbox a) rfl
  case illegal =>
    rintro w hop (hb | hz)
    · have hne : fieldOp w ≠ 0x01 := by
        obtain hop | hop := hop <;> rw [hop] <;> decide
      exact (illegalWordsExactly.1 w).mpr (.inr (.inr (.inl ⟨hb, hne⟩)))
    · exact (illegalWordsExactly.1 w).mpr (.inr (.inl hz))
  case fatal => exact fun w s hf => runCommand_fatal hf w
  case examples => decide

end Sys2Proof.Machine

/-!
PROOF. The round transforms (42_round_transforms.md R111 to R122), each by what it does to a row and column of the block
(R21). MIXCOLUMNS and its inverse are two circulants; a circulant after a circulant is one again, of the product
polynomial modulo x^4 + 1, and so the two undo each other.
-/

namespace Sys2Proof.Machine

/-! ### The bytes of a transformed block -/

@[simp] theorem getElem_subBytes (b : Block) (i : Nat) (h : i < 16) : (subBytes b)[i] = forwardSbox b[i] := by
  simp [subBytes]

@[simp] theorem getElem_invSubBytes (b : Block) (i : Nat) (h : i < 16) : (invSubBytes b)[i] = inverseSbox b[i] := by
  simp [invSubBytes]

@[simp] theorem cell_shiftRows (b : Block) (C R : Fin 4) : cell (shiftRows b) C R = cell b (C + R) R :=
  cell_ofCells _ C R

@[simp] theorem cell_invShiftRows (b : Block) (C R : Fin 4) : cell (invShiftRows b) C R = cell b (C - R) R :=
  cell_ofCells _ C R

@[simp] theorem cell_replicate (v : Byte) (C R : Fin 4) : cell (Vector.replicate 16 v) C R = v := by
  simp [cell]

@[simp] theorem cell_addRoundKey (b : Block) (w : Vector Word 60) (n : Nat) (C R : Fin 4) :
    cell (addRoundKey b w n) C R = cell b C R ^^^ byteOf (w.getD (4 * n + C.val) 0) R.val :=
  cell_ofCells _ C R

/-! ### Circulants of four bytes (R117) -/

theorem xor_multiply (a b c : Byte) : multiply (a ^^^ b) c = multiply a c ^^^ multiply b c :=
  (doublingLinear_multiply c).map_xor a b

/-- Every column of the block multiplied by the circulant matrix of first row `k0 k1 k2 k3`. -/
def circulant (k0 k1 k2 k3 : Byte) (b : Block) : Block := ofCells fun C r =>
  multiply k0 (cell b C r) ^^^ multiply k1 (cell b C (r + 1)) ^^^ multiply k2 (cell b C (r + 2)) ^^^
    multiply k3 (cell b C (r + 3))

@[simp] theorem cell_circulant (k0 k1 k2 k3 : Byte) (b : Block) (C r : Fin 4) :
    cell (circulant k0 k1 k2 k3 b) C r =
      multiply k0 (cell b C r) ^^^ multiply k1 (cell b C (r + 1)) ^^^ multiply k2 (cell b C (r + 2)) ^^^
        multiply k3 (cell b C (r + 3)) :=
  cell_ofCells _ C r

theorem mixColumns_eq_circulant : mixColumns = circulant 0x02 0x03 0x01 0x01 := by
  funext b
  simp only [mixColumns, circulant, one_multiply]

theorem invMixColumns_eq_circulant : invMixColumns = circulant 0x0e 0x0b 0x0d 0x09 := rfl

theorem circulant_one (b : Block) : circulant 1 0 0 0 b = b :=
  block_ext_cells fun C r => by
    rw [cell_circulant, one_multiply, zero_multiply, zero_multiply, zero_multiply]
    simp

/-- The composite is the circulant of the cyclic convolution of the two rows. -/
theorem circulant_circulant (k0 k1 k2 k3 l0 l1 l2 l3 : Byte) (b : Block) :
    circulant k0 k1 k2 k3 (circulant l0 l1 l2 l3 b) = circulant
      (multiply k0 l0 ^^^ multiply k1 l3 ^^^ multiply k2 l2 ^^^ multiply k3 l1)
      (multiply k0 l1 ^^^ multiply k1 l0 ^^^ multiply k2 l3 ^^^ multiply k3 l2)
      (multiply k0 l2 ^^^ multiply k1 l1 ^^^ multiply k2 l0 ^^^ multiply k3 l3)
      (multiply k0 l3 ^^^ multiply k1 l2 ^^^ multiply k2 l1 ^^^ multiply k3 l0) b := by
  refine block_ext_cells fun C r => ?_
  have hwrap : (1 + 3 : Fin 4) = 0 ∧ (2 + 2 : Fin 4) = 0 ∧ (3 + 1 : Fin 4) = 0 ∧ (1 + 1 : Fin 4) = 2 ∧
    (1 + 2 : Fin 4) = 3 ∧ (2 + 1 : Fin 4) = 3 ∧ (2 + 3 : Fin 4) = 1 ∧ (3 + 2 : Fin 4) = 1 ∧ (3 + 3 : Fin 4) = 2 := by
    decide
  simp only [cell_circulant, multiply_xor, xor_multiply, multiply_assoc, add_assoc, hwrap, add_zero]
  ac_rfl

/-- The matrix of a circulant, row by row. -/
theorem circulant_rows (k0 k1 k2 k3 : Byte) (b : Block) (C : Fin 4) {s0 s1 s2 s3 : Byte} (h0 : s0 = cell b C 0)
    (h1 : s1 = cell b C 1) (h2 : s2 = cell b C 2) (h3 : s3 = cell b C 3) :
    cell (circulant k0 k1 k2 k3 b) C 0 = multiply k0 s0 ^^^ multiply k1 s1 ^^^ multiply k2 s2 ^^^ multiply k3 s3 ∧
    cell (circulant k0 k1 k2 k3 b) C 1 = multiply k3 s0 ^^^ multiply k0 s1 ^^^ multiply k1 s2 ^^^ multiply k2 s3 ∧
    cell (circulant k0 k1 k2 k3 b) C 2 = multiply k2 s0 ^^^ multiply k3 s1 ^^^ multiply k0 s2 ^^^ multiply k1 s3 ∧
    cell (circulant k0 k1 k2 k3 b) C 3 = multiply k1 s0 ^^^ multiply k2 s1 ^^^ multiply k3 s2 ^^^ multiply k0 s3 := by
  subst h0 h1 h2 h3
  refine ⟨cell_circulant .., ?_, ?_, ?_⟩ <;> rw [cell_circulant] <;> ac_rfl

/-! ### Each transform and its inverse -/

theorem invSubBytes_subBytes (b : Block) : invSubBytes (subBytes b) = b :=
  Vector.ext fun i hi => by rw [getElem_invSubBytes, getElem_subBytes, inverseSbox_forwardSbox]

theorem subBytes_invSubBytes (b : Block) : subBytes (invSubBytes b) = b :=
  Vector.ext fun i hi => by rw [getElem_subBytes, getElem_invSubBytes, forwardSbox_inverseSbox]

theorem invShiftRows_shiftRows (b : Block) : invShiftRows (shiftRows b) = b :=
  block_ext_cells fun C R => by rw [cell_invShiftRows, cell_shiftRows, sub_add_cancel]

theorem shiftRows_invShiftRows (b : Block) : shiftRows (invShiftRows b) = b :=
  block_ext_cells fun C R => by rw [cell_shiftRows, cell_invShiftRows, add_sub_cancel_right]

theorem invMixColumns_mixColumns (b : Block) : invMixColumns (mixColumns b) = b := by
  rw [mixColumns_eq_circulant, invMixColumns_eq_circulant, circulant_circulant]
  exact circulant_one b

theorem mixColumns_invMixColumns (b : Block) : mixColumns (invMixColumns b) = b := by
  rw [mixColumns_eq_circulant, invMixColumns_eq_circulant, circulant_circulant]
  exact circulant_one b

theorem addRoundKey_addRoundKey (b : Block) (w : Vector Word 60) (n : Nat) :
    addRoundKey (addRoundKey b w n) w n = b :=
  block_ext_cells fun C R => by
    rw [cell_addRoundKey, cell_addRoundKey, BitVec.xor_assoc, BitVec.xor_self, BitVec.xor_zero]

/-- Settles O38: the S-boxes undo each other, the column shifts cancel, the two circulants multiply to the identity, and
XOR undoes itself. -/
theorem transformsAreInvertible : Obligations.TransformsAreInvertible :=
  ⟨fun b => ⟨invSubBytes_subBytes b, subBytes_invSubBytes b⟩,
    fun b => ⟨invShiftRows_shiftRows b, shiftRows_invShiftRows b⟩,
    fun b => ⟨invMixColumns_mixColumns b, mixColumns_invMixColumns b⟩, addRoundKey_addRoundKey⟩

/-! ### SUBBYTES, SHIFTROWS, MIXCOLUMNS and their inverses (R112 to R119) -/

/-- A transform replaces S, clears ERR and CAUSE, and changes nothing else. -/
theorem State.transform_eq (s : State) (f : Block → Block) :
    s.transform f = { s with block := f s.block, status := { s.status with err := false, cause := .none } } := rfl

/-- Settles O23: S by the bytes of the transform, the words by the decoder, the examples by evaluation. -/
theorem subBytesResults : Obligations.SubBytesResults := by
  refine ⟨fun s => ⟨_, rfl, s.transform_eq subBytes, fun i => getElem_subBytes s.block i i.isLt⟩,
    fun s => ⟨_, rfl, s.transform_eq invSubBytes, fun i => getElem_invSubBytes s.block i i.isLt⟩,
    decode_encode (i := .subbytes) rfl, decode_encode (i := .invsubbytes) rfl, ?fatal, ?examples⟩
  case fatal => exact fun w s hf => runCommand_fatal hf w
  case examples =>
    suffices h : ∀ p : Block × Block × Block, p ∈ _ → subBytes p.1 = p.2.1 ∧ invSubBytes p.1 = p.2.2 by
      rintro s b u v hbuv rfl
      obtain ⟨hu, hv⟩ := h (s.block, u, v) hbuv
      exact ⟨_, _, rfl, hu, rfl, hv⟩
    decide +kernel

theorem shiftRows_eq_table (b : Block) : shiftRows b = #v[b[0], b[5], b[10], b[15], b[4], b[9], b[14], b[3],
    b[8], b[13], b[2], b[7], b[12], b[1], b[6], b[11]] :=
  block_ext_cells fun C R => by
    rw [cell_shiftRows]
    fin_cases C <;> fin_cases R <;> rfl

theorem invShiftRows_eq_table (b : Block) : invShiftRows b = #v[b[0], b[13], b[10], b[7], b[4], b[1], b[14], b[11],
    b[8], b[5], b[2], b[15], b[12], b[9], b[6], b[3]] :=
  block_ext_cells fun C R => by
    rw [cell_invShiftRows]
    fin_cases C <;> fin_cases R <;> rfl

/-- Settles O24: the index tables, and row 0 as the row that is shifted by no column. -/
theorem shiftRowsResults : Obligations.ShiftRowsResults := by
  refine ⟨fun s => ?shiftTable, fun s => ?invShiftTable, decode_encode (i := .shiftrows) rfl,
    decode_encode (i := .invshiftrows) rfl, fun b c => ⟨?shiftRow0, ?invShiftRow0⟩, fun v => ?equalBytes, ?examples⟩
  case shiftTable =>
    rw [← shiftRows_eq_table]
    exact congrArg Host.Outcome.next (s.transform_eq shiftRows)
  case invShiftTable =>
    rw [← invShiftRows_eq_table]
    exact congrArg Host.Outcome.next (s.transform_eq invShiftRows)
  case shiftRow0 => exact (cell_shiftRows b c 0).trans (by rw [add_zero]; rfl)
  case invShiftRow0 => exact (cell_invShiftRows b c 0).trans (by rw [sub_zero]; rfl)
  case equalBytes => exact block_ext_cells fun C R => by rw [cell_shiftRows, cell_replicate, cell_replicate]
  case examples => decide

/-- Settles O25: the rows of the two circulants. Four equal bytes are multiplied by the sum of a row, which is 1. -/
theorem mixColumnsResults : Obligations.MixColumnsResults := by
  refine ⟨fun s => ⟨_, rfl, s.transform_eq mixColumns, fun c s0 s1 s2 s3 h0 h1 h2 h3 => ?rows⟩,
    fun s => ⟨_, rfl, s.transform_eq invMixColumns, fun c s0 s1 s2 s3 h0 h1 h2 h3 => ?invRows⟩,
    decode_encode (i := .mixcolumns) rfl, decode_encode (i := .invmixcolumns) rfl, fun v => ⟨?equal, ?invEqual⟩,
    ?examples, ?invExamples⟩
  case rows =>
    rw [State.transform_block, mixColumns_eq_circulant]
    have hrows := circulant_rows 0x02 0x03 0x01 0x01 s.block c h0 h1 h2 h3
    simp only [one_multiply] at hrows
    exact hrows
  case invRows => exact circulant_rows 0x0e 0x0b 0x0d 0x09 s.block c h0 h1 h2 h3
  case equal =>
    rw [← xor_multiply, BitVec.xor_assoc, BitVec.xor_self, BitVec.xor_zero]
    exact one_multiply v
  case invEqual =>
    rw [← xor_multiply, ← xor_multiply, ← xor_multiply]
    exact one_multiply v
  case examples =>
    suffices h : ∀ p : Block × Block, p ∈ _ → mixColumns p.1 = p.2 from fun b u hbu => h (b, u) hbu
    decide
  case invExamples =>
    suffices h : ∀ p : Block × Block, p ∈ _ → invMixColumns p.1 = p.2 from fun b u hbu => h (b, u) hbu
    decide

/-! ### ADDROUNDKEY (R122) -/

theorem encode_addroundkey (n : Byte) : encode (.addroundkey n.toNat) = 0x00000016 ||| (n.setWidth 32 <<< 8) := by
  rw [encode, BitVec.ofNat_toNat, BitVec.setWidth_eq]
  exact BitVec.or_zero

/-- ADDROUNDKEY after any transform of S: W and KSEL are still those of before. -/
theorem exec_addroundkey_transform {s : State} (hs : s.status.schedValid = true) {n : Nat} (hn : n ≤ rounds s.ksel)
    (f : Block → Block) :
    exec (.addroundkey n) (s.transform f) = .next (s.transform fun b => addRoundKey (f b) s.sched n) :=
  exec_addroundkey (s := s.transform f) hs hn

/-- R120 byte by byte, for a round key that W holds. -/
theorem cell_addRoundKey_of_getElem? (b : Block) {w : Vector Word 60} {n : Nat} {C : Fin 4} {k : Word}
    (hk : w[4 * n + C.val]? = some k) (R : Fin 4) : cell (addRoundKey b w n) C R = cell b C R ^^^ byteOf k R.val := by
  simp [Vector.getD, hk]

/-! #### A round key of a fresh schedule (R131, R134) -/

theorem wordAt_congr {n : Nat} {x y : Vector Byte n} {j : Nat}
    (h : ∀ i < 4 * j + 4, x.getD i 0 = y.getD i 0) : wordAt x j = wordAt y j := by
  rw [wordAt, wordAt, h _ (by omega), h _ (by omega), h _ (by omega), h _ (by omega)]

/-- The schedule does not read the bytes of the key at and above `4*nk`. -/
theorem expandWords_congr {key key' : Vector Byte 32} {nk : Nat}
    (h : ∀ (i : Nat) (hi : i < 32), i < 4 * nk → key[i] = key'[i]) (extra : Nat) :
    expandWords key nk extra = expandWords key' nk extra := by
  have hbyte (i : Nat) (hi : i < 4 * nk) : key.getD i 0 = key'.getD i 0 := by
    by_cases hlt : i < 32
    · simp [Vector.getD, hlt, h i hlt hi]
    · simp [Vector.getD, hlt]
  induction extra with
  | zero =>
    refine List.map_congr_left fun j hj => wordAt_congr fun i hi => hbyte i ?_
    have hj := List.mem_range.mp hj
    omega
  | succ e ih => rw [expandWords, expandWords, ih]

/-- A round key within the words just loaded does not depend on what W held before. -/
theorem addRoundKey_mergeSchedule {ws : List Word} {n : Nat} (hn : 4 * n + 4 ≤ ws.length) (b : Block)
    (old old' : Vector Word 60) :
    addRoundKey b (mergeSchedule ws old) n = addRoundKey b (mergeSchedule ws old') n := by
  refine block_ext_cells fun C R => ?_
  have hC : 4 * n + C.val < ws.length := by omega
  have hword : (mergeSchedule ws old).getD (4 * n + C.val) 0 = (mergeSchedule ws old').getD (4 * n + C.val) 0 := by
    by_cases hlt : 4 * n + C.val < 60
    · simp [Vector.getD, hlt, hC]
    · simp [Vector.getD, hlt]
  rw [cell_addRoundKey, cell_addRoundKey, hword]

/-- The examples of R122: the round keys 0 and 10 of `K16` (95_test_vectors.md). -/
theorem addRoundKey_countingKey (old : Vector Word 60) :
    addRoundKey exampleBlock (mergeSchedule (expandKey countingKey 4 44) old) 0 =
      blockOfHex 0x00102030405060708090a0b0c0d0e0f0 ∧
    addRoundKey exampleBlock (mergeSchedule (expandKey countingKey 4 44) old) 10 =
      blockOfHex 0x13003f4ca7c12c607b9e0d3081f6de3a := by
  have hlen : (expandKey countingKey 4 44).length = 44 := length_expandKey countingKey 4 44 (by decide)
  rw [addRoundKey_mergeSchedule (by omega) _ old (Vector.replicate 60 0),
    addRoundKey_mergeSchedule (by omega) _ old (Vector.replicate 60 0)]
  decide +kernel

/-- W after an expansion of `K16`; AES-128 reads no other byte of K. -/
theorem expandSchedule_sched_countingKey {s : State} (hksel : s.ksel = 128)
    (hkey : ∀ i : Fin 16, s.key[i.val] = BitVec.ofNat 8 i.val) :
    s.expandSchedule.sched = mergeSchedule (expandKey countingKey 4 44) s.sched := by
  have hwords : expandKey s.key 4 44 = expandKey countingKey 4 44 := by
    rw [expandKey, expandKey, expandWords_congr fun i hi h16 => ?bytes]
    case bytes => exact (hkey ⟨i, h16⟩).trans (by simp [countingKey])
  rw [State.expandSchedule_sched, hksel, ← hwords]
  rfl

/-- Settles O26: the two failures in the order of `execAddroundkey`, the result byte by byte, and the examples from the
first 16 bytes of K. -/
theorem addRoundKeyResults : Obligations.AddRoundKeyResults := by
  refine ⟨fun n s hs => ?noSchedule, fun n s hs hn => ?roundRange, fun n s hs hn => ?result, fun n => ?word,
    fun w hop hb => ?illegal, ⟨rfl, rfl, fun ksel h128 h192 => ?rounds256⟩, ?examples⟩
  case noSchedule => exact if_pos hs
  case roundRange =>
    have hexec : exec (.addroundkey n) s = .next (s.raiseFatal .roundRange) := by simp [exec, execAddroundkey, hs, hn]
    exact hexec
  case result =>
    refine ⟨_, exec_addroundkey hs hn, s.transform_eq fun b => addRoundKey b s.sched n, fun C R k hk => ?cells, _,
      exec_addroundkey_transform hs hn _, ?undo⟩
    case cells => exact cell_addRoundKey_of_getElem? s.block hk R
    case undo => exact addRoundKey_addRoundKey s.block s.sched n
  case word => exact encode_addroundkey n ▸ decode_encode (by simp [Instr.wellFormed, n.isLt])
  case illegal =>
    have hne : fieldOp w ≠ 0x01 := by
      rw [hop]
      decide
    exact (illegalWordsExactly.1 w).mpr (.inr (.inr (.inl ⟨hb, hne⟩)))
  case rounds256 => rw [rounds, if_neg h128, if_neg h192]
  case examples =>
    intro s t hksel hkey hblock ht
    obtain rfl : s.expandSchedule.succeed = t := by
      cases ht
      rfl
    have hsched := expandSchedule_sched_countingKey hksel hkey
    have hrounds : 10 ≤ rounds s.expandSchedule.succeed.ksel := by
      rw [State.succeed_ksel, State.expandSchedule_ksel, hksel]
      decide
    obtain ⟨h0, h10⟩ := addRoundKey_countingKey s.sched
    refine ⟨_, _, exec_addroundkey (s := s.expandSchedule.succeed) rfl (Nat.zero_le _), ?_,
      exec_addroundkey (s := s.expandSchedule.succeed) rfl hrounds, ?_⟩
    · rw [State.transform_block, State.succeed_block, State.expandSchedule_block, hblock, State.succeed_sched, hsched,
        h0]
    · rw [State.transform_block, State.succeed_block, State.expandSchedule_block, hblock, State.succeed_sched, hsched,
        h10]

end Sys2Proof.Machine

/-!
PROOF. The key schedule (43_key_schedule.md R132 to R135). The helpers act on a word as XOR and rotation do, and every
word from `Nk` on is the recurrence over the same list; EXPANDKEY lays that list over W, which a second run repeats.
-/

namespace Sys2Proof.Machine

/-! ### The word helpers (R132, R133) -/

theorem byteOf_xor (v w : Word) (r : Nat) : byteOf (v ^^^ w) r = byteOf v r ^^^ byteOf w r :=
  BitVec.extractLsb'_xor ..

/-- A byte as a word is byte 0, the others are zero. -/
theorem setWidth_eq_pack (c : Byte) : c.setWidth 32 = pack c 0 0 0 := by
  simp [pack]

theorem addRcon_eq_xor (t : Word) (c : Byte) : addRcon t c = t ^^^ c.setWidth 32 := by
  rw [← pack_byteOf (t ^^^ c.setWidth 32), setWidth_eq_pack]
  simp [byteOf_xor, addRcon]

/-- Bytes one place down and byte 0 on top: the number rotated right by 8 bits. -/
theorem rotWord_eq_shifts (t : Word) : rotWord t = (t >>> 8) ||| (t <<< 24) := by
  rw [rotWord, pack_eq_append]
  refine BitVec.eq_of_getLsbD_eq fun i hi => ?_
  simp only [BitVec.getLsbD_append, getLsbD_byteOf, BitVec.getLsbD_or, BitVec.getLsbD_ushiftRight,
    BitVec.getLsbD_shiftLeft]
  interval_cases i <;> simp

theorem byteOf_subWord (t : Word) (r : Fin 4) : byteOf (subWord t) r.val = forwardSbox (byteOf t r.val) := by
  obtain ⟨h0, h1, h2, h3⟩ := byteOf_pack (forwardSbox (byteOf t 0)) (forwardSbox (byteOf t 1)) (forwardSbox (byteOf t 2))
    (forwardSbox (byteOf t 3))
  match r with
  | 0 => exact h0
  | 1 => exact h1
  | 2 => exact h2
  | 3 => exact h3

theorem rcon_succ {j : Nat} (h1 : 1 ≤ j) (h9 : j ≤ 9) : rcon (j + 1) = xtime (rcon j) := by
  interval_cases j <;> rfl

/-- Settles O39: each helper by the bytes of its word. -/
theorem keyScheduleHelpers : Obligations.KeyScheduleHelpers :=
  ⟨rotWord_eq_shifts, addRcon_eq_xor, byteOf_subWord, rfl, fun _ => rcon_succ⟩

/-! ### The recurrence (R135) -/

/-- A word from `Nk` on, in terms of the finished schedule: the words before it never change again. -/
theorem getD_expandKey_step (key : Vector Byte 32) {nk total i : Nat} (hpos : 0 < nk) (hnk : nk ≤ i) (hi : i < total) :
    (expandKey key nk total).getD i 0 = (expandKey key nk total).getD (i - nk) 0 ^^^
      scheduleTemp nk i ((expandKey key nk total).getD (i - 1) 0) := by
  obtain ⟨e, rfl⟩ := Nat.exists_eq_add_of_le hnk
  have hprefix {k : Nat} (hk : k < nk + e) :
      (expandWords key nk e).getD k 0 = (expandWords key nk (total - nk)).getD k 0 :=
    getD_expandWords_prefix key nk e _ k hk (by omega) 0
  rw [expandKey, getD_expandWords_step key nk _ e (by omega) 0, scheduleWord, hprefix (by omega), hprefix (by omega)]

/-- Settles O40: the packed key words, the recurrence, and its three cases for the three key sizes. -/
theorem keyScheduleRecurrence : Obligations.KeyScheduleRecurrence := by
  refine ⟨fun key nk total hsize w hw => ?schedule, ?steps⟩
  case schedule =>
    obtain ⟨hpos, hle, h256⟩ : 0 < nk ∧ nk ≤ total ∧ (nk > 6 ↔ nk = 8) := by
      simp only [List.mem_cons, Prod.mk.injEq, List.not_mem_nil, or_false] at hsize
      omega
    subst hw
    refine ⟨length_expandKey key nk total hle, fun i hi => getD_expandWords_key key nk _ i hi 0, fun i hnk hi => ?_⟩
    rw [getD_expandKey_step key hpos hnk hi, scheduleTemp]
    simp only [h256]
    refine ⟨fun h0 => ?_, fun h0 h8 h4 => ?_, fun h0 h => ?_⟩
    · rw [if_pos h0]
    · rw [if_neg h0, if_pos ⟨h8, h4⟩]
    · rw [if_neg h0, if_neg h]
  case steps => decide +kernel

/-! ### EXPANDKEY (R134) -/

theorem exec_expandkey (s : State) : exec .expandkey s = .next s.expandSchedule.succeed := rfl

/-- Stated for any list of words, so that no proof about the state computes a schedule. -/
theorem loadSchedule_succeed_eq (s : State) (ws : List Word) : (s.loadSchedule ws).succeed =
    { s with sched := mergeSchedule ws s.sched,
             status := { s.status with err := false, cause := .none, schedValid := true } } := by
  simp only [State.loadSchedule, State.succeed, State.setStatus, statusSuccess, statusSchedValid]

theorem expandSchedule_succeed_eq (s : State) : s.expandSchedule.succeed =
    { s with sched := mergeSchedule (expandKey s.key (keyWords s.ksel) (schedWords s.ksel)) s.sched,
             status := { s.status with err := false, cause := .none, schedValid := true } } := by
  rw [State.expandSchedule, loadSchedule_succeed_eq]

/-- W after an expansion: the words of the list, and above them the words of before. -/
theorem getElem_mergeSchedule_eq_ite (ws : List Word) (old : Vector Word 60) (i : Nat) (hi : i < 60) :
    (mergeSchedule ws old)[i] = if i < ws.length then ws.getD i 0 else old[i] := by
  by_cases h : i < ws.length <;> simp [h]

theorem mergeSchedule_mergeSchedule (ws : List Word) (old : Vector Word 60) :
    mergeSchedule ws (mergeSchedule ws old) = mergeSchedule ws old := by
  refine Vector.ext fun i hi => ?_
  by_cases h : i < ws.length <;> simp only [getElem_mergeSchedule_eq_ite, h, if_true, if_false]

/-- For every key size the expansion has `4*(Nr+1)` words. -/
theorem length_expandKey_schedWords (key : Vector Byte 32) (ksel : Word) :
    (expandKey key (keyWords ksel) (schedWords ksel)).length = schedWords ksel := by
  have hsize := keySize_cases ksel
  exact length_expandKey _ _ _ (by unfold schedWords; omega)

theorem getElem_mergeSchedule_expandKey (key : Vector Byte 32) (ksel : Word) (old : Vector Word 60) (i : Fin 60) :
    (mergeSchedule (expandKey key (keyWords ksel) (schedWords ksel)) old)[i] =
      if i.val < schedWords ksel then (expandKey key (keyWords ksel) (schedWords ksel)).getD i.val 0 else old[i] := by
  have hword := getElem_mergeSchedule_eq_ite (expandKey key (keyWords ksel) (schedWords ksel)) old i i.isLt
  rwa [length_expandKey_schedWords] at hword

/-- A second EXPANDKEY repeats the first: K and KSEL are as they were, and the words above stay. -/
theorem exec_expandkey_again (s : State) :
    exec .expandkey s.expandSchedule.succeed = .next s.expandSchedule.succeed := by
  rw [exec_expandkey, expandSchedule_succeed_eq s, expandSchedule_succeed_eq, mergeSchedule_mergeSchedule]

/-- The expansion reads the first `4*nk` bytes of the key only. -/
theorem expandKey_congr {key key' : Vector Byte 32} {nk : Nat}
    (h : ∀ i : Fin 32, i.val < 4 * nk → key'[i] = key[i]) (total : Nat) :
    expandKey key' nk total = expandKey key nk total :=
  expandWords_congr (fun i hi => h ⟨i, hi⟩) (total - nk)

theorem exec_expandkey_of_key_agrees {s : State} {key' : Vector Byte 32}
    (h : ∀ i : Fin 32, i.val < 4 * keyWords s.ksel → key'[i] = s.key[i]) :
    exec .expandkey { s with key := key' } = .next { s.expandSchedule.succeed with key := key' } := by
  rw [exec_expandkey, expandSchedule_succeed_eq, expandSchedule_succeed_eq, expandKey_congr h]

/-- The words that the example of R134 prints, for `K16` (95_test_vectors.md). -/
theorem expandKey_countingKey_words :
    (expandKey countingKey 4 44)[0]? = some 0x03020100 ∧ (expandKey countingKey 4 44)[1]? = some 0x07060504 ∧
    (expandKey countingKey 4 44)[2]? = some 0x0b0a0908 ∧ (expandKey countingKey 4 44)[3]? = some 0x0f0e0d0c ∧
    (expandKey countingKey 4 44)[4]? = some 0xfd74aad6 ∧ (expandKey countingKey 4 44)[43]? = some 0xc5302b4d := by
  decide +kernel

/-- Settles O27: W by the list laid over it, the second run and the unread key bytes by the two lemmas on `exec`, and the
example from the first 16 bytes of K. -/
theorem expandKeyResult : Obligations.ExpandKeyResult := by
  refine ⟨fun s => ⟨_, exec_expandkey s, expandSchedule_succeed_eq s,
    getElem_mergeSchedule_expandKey s.key s.ksel s.sched, exec_expandkey_again s, fun _ => exec_expandkey_of_key_agrees⟩,
    decode_encode (i := .expandkey) rfl, fun w s hf => runCommand_fatal hf w, by decide, ?k16⟩
  case k16 =>
    intro s t hksel hfatal hkey ht
    obtain rfl : s.expandSchedule.succeed = t := by
      cases ht
      rfl
    have hstatus : statusWord s.expandSchedule.succeed.status = 0x00000002 := by
      simp [statusWord, hfatal, flagWord, Cause.code]
    obtain ⟨h0, h1, h2, h3, h4, h43⟩ := expandKey_countingKey_words
    have hword {i : Nat} {v : Word} (h : (expandKey countingKey 4 44)[i]? = some v) (hi : i < 60) :
        s.expandSchedule.succeed.sched[i] = v := by
      simp only [State.succeed_sched, expandSchedule_sched_countingKey hksel hkey, getElem_mergeSchedule,
        List.getD_eq_getElem?_getD, h, Option.getD_some]
    exact ⟨hword h0 _, hword h1 _, hword h2 _, hword h3 _, hword h4 _, hword h43 _, hstatus⟩

end Sys2Proof.Machine

/-!
PROOF. The cipher driver (44_cipher_driver.md R140 to R145). The inverse cipher undoes SubBytes and ShiftRows before it
adds the round key, so the block between two of its rounds is the forward cipher's after ShiftRows; with this offset
each round of the one loop undoes a round of the other.
-/

namespace Sys2Proof.Machine

/-- Settles O9: each of the seven effects is a next state. -/
theorem everyCommandCompletes : Obligations.EveryCommandCompletes := fun i s =>
  let ⟨t, ht, _⟩ := exec_effect i s
  ⟨t, ht⟩

/-! ### The two ciphers undo each other (R144) -/

theorem invSubBytes_invShiftRows_cancel (b : Block) : invSubBytes (invShiftRows (shiftRows (subBytes b))) = b := by
  rw [invShiftRows_shiftRows, invSubBytes_subBytes]

theorem shiftRows_subBytes_cancel (b : Block) : shiftRows (subBytes (invSubBytes (invShiftRows b))) = b := by
  rw [subBytes_invSubBytes, shiftRows_invShiftRows]

/-- The rounds of the inverse cipher lead back from ShiftRows of round `n + 1` to ShiftRows of round 1. -/
theorem inverseRounds_forwardRounds (w : Vector Word 60) (n : Nat) (b : Block) :
    inverseRounds w n (shiftRows (subBytes (forwardRounds w n b))) = shiftRows (subBytes b) := by
  induction n with
  | zero => rfl
  | succ n ih =>
    rw [inverseRounds, invSubBytes_invShiftRows_cancel, forwardRounds, addRoundKey_addRoundKey,
      invMixColumns_mixColumns, ih]

/-- The rounds of the forward cipher lead back from the block after the rounds of the inverse cipher. -/
theorem forwardRounds_inverseRounds (w : Vector Word 60) (n : Nat) (b : Block) :
    forwardRounds w n (invSubBytes (invShiftRows (inverseRounds w n b))) = invSubBytes (invShiftRows b) := by
  induction n generalizing b with
  | zero => rfl
  | succ n ih =>
    rw [forwardRounds, inverseRounds, ih, shiftRows_subBytes_cancel, mixColumns_invMixColumns,
      addRoundKey_addRoundKey]

theorem inverseCipher_forwardCipher (b : Block) (w : Vector Word 60) (nr : Nat) :
    inverseCipher (forwardCipher b w nr) w nr = b := by
  rw [inverseCipher, forwardCipher, addRoundKey_addRoundKey, inverseRounds_forwardRounds,
    invSubBytes_invShiftRows_cancel, addRoundKey_addRoundKey]

theorem forwardCipher_inverseCipher (b : Block) (w : Vector Word 60) (nr : Nat) :
    forwardCipher (inverseCipher b w nr) w nr = b := by
  rw [forwardCipher, inverseCipher, addRoundKey_addRoundKey, forwardRounds_inverseRounds, shiftRows_subBytes_cancel,
    addRoundKey_addRoundKey]

/-- The example of R144, for `K16` (95_test_vectors.md). -/
theorem forwardCipher_exampleBlock :
    forwardCipher exampleBlock (mergeSchedule (expandKey countingKey 4 44) (Vector.replicate 60 0)) 10 =
      blockOfHex 0x69c4e0d86a7b0430d8cdb78070b4c55a := by
  decide +kernel

/-- Settles O42: each loop of rounds undoes the other, and the known answer by evaluation. -/
theorem cipherRoundTrip : Obligations.CipherRoundTrip :=
  ⟨fun b w nr => ⟨inverseCipher_forwardCipher b w nr, forwardCipher_inverseCipher b w nr⟩, forwardCipher_exampleBlock⟩

/-! ### ENCBLK and DECBLK (R142, R143) -/

theorem exec_encblk {s : State} (hs : s.status.schedValid = true) :
    exec .encblk s = .next (s.transform fun b => forwardCipher b s.sched (rounds s.ksel)) := by
  simp [exec, execEncblk, hs]

theorem exec_decblk {s : State} (hs : s.status.schedValid = true) :
    exec .decblk s = .next (s.transform fun b => inverseCipher b s.sched (rounds s.ksel)) := by
  simp [exec, execDecblk, hs]

/-- Settles O28: with a valid schedule each command is a transform of S, and without one it is an error. -/
theorem blockCipherResults : Obligations.BlockCipherResults :=
  ⟨fun _ => exec_encblk, fun _ => exec_decblk,
    fun _ hs => ⟨exec_noSchedule hs (.inl rfl), exec_noSchedule hs (.inr (.inl rfl))⟩⟩

/-- Settles O43: the first command leaves W, KSEL and SCHED_VALID alone, so the second runs its cipher under the same
schedule and undoes the first. -/
theorem blockCommandsRestoreBlock : Obligations.BlockCommandsRestoreBlock := fun s hs =>
  ⟨⟨_, _, exec_encblk hs, exec_decblk (s := s.transform _) hs,
      inverseCipher_forwardCipher s.block s.sched (rounds s.ksel)⟩,
    ⟨_, _, exec_decblk hs, exec_encblk (s := s.transform _) hs,
      forwardCipher_inverseCipher s.block s.sched (rounds s.ksel)⟩⟩

end Sys2Proof.Machine

/-!
PROOF. The mode layer (45_mode_layer.md R150 to R159). `ModeResult` says once what a mode command leaves behind on a
buffer that passes the checks; the statements about the four commands are read off it. The chaining value is described
on the start state alone (`State.chain`), so that a decryption is compared with the encryption before it block by block.
-/

namespace Sys2Proof.Machine

/-! ### The argument checks (R150) -/

theorem exec_mode_failed {i : Instr} {s : State} {c : Cause} (hi : isMode i = true) (hc : modeCheck s = some c) :
    exec i s = .next (s.raiseError c) := by
  obtain ⟨f, hf⟩ := exec_mode hi s
  exact hf.trans (runMode_failed hc)

/-- Settles O29: each check comes after the ones before it have passed, and a failed one is an error. -/
theorem modeChecksInOrder : Obligations.ModeChecksInOrder := by
  refine fun i s hi => ⟨fun h0 => exec_mode_failed hi ?zero, fun h0 h16 => exec_mode_failed hi ?unaligned,
    fun h0 h16 hrange => exec_mode_failed hi ?range⟩
  case zero => rw [modeCheck, if_pos h0]
  case unaligned => rw [modeCheck, if_neg h0, if_pos h16]
  case range => rw [modeCheck, if_neg h0, if_neg (not_not.mpr h16), if_pos hrange]

/-! ### The addresses of the buffer (R56) -/

/-- An address lies in a block of the buffer, or outside. -/
theorem block_or_outsideBuffer (s : State) (a : Nat) :
    (∃ i j, i < s.dlen.toNat / 16 ∧ j < 16 ∧ a = blockAddr s.dptr.toNat i + j) ∨ s.outsideBuffer a := by
  refine or_iff_not_imp_right.mpr fun h => ?_
  simp only [State.outsideBuffer, not_forall, not_or] at h
  obtain ⟨i, hi, hlow, hhigh⟩ := h
  exact ⟨i, a - blockAddr s.dptr.toNat i, hi, by omega, by omega⟩

/-- The blocks of the buffer follow one another without a gap. -/
theorem outsideBuffer_bounds {s : State} {a : Nat} (h : s.outsideBuffer a) :
    a < s.dptr.toNat ∨ s.dptr.toNat + 16 * (s.dlen.toNat / 16) ≤ a := by
  by_contra hin
  have := h ((a - s.dptr.toNat) / 16) (by omega)
  simp only [blockAddr] at this
  omega

/-- Two states over one buffer hold the same DMEM when they agree block by block and outside the buffer. -/
theorem read_eq_of_blocks {s t : State} (hdptr : t.dptr = s.dptr)
    (hblock : ∀ i, i < s.dlen.toNat / 16 → t.bufferBlock i = s.bufferBlock i)
    (houtside : ∀ a, s.outsideBuffer a → t.dmem.read a = s.dmem.read a) (a : Nat) :
    t.dmem.read a = s.dmem.read a := by
  obtain ⟨i, j, hi, hj, rfl⟩ | ha := block_or_outsideBuffer s a
  · have hbyte := congrArg (·[j]) (hblock i hi)
    simpa only [State.bufferBlock, Memory.getElem_readBlock, hdptr] using hbyte
  · exact houtside a ha

/-! ### The chaining value -/

/-- The chaining value before block `i`, from V and the blocks as the buffer holds them at the start (R156). -/
def State.chain (s : State) (f : BlockStep) : Nat → Block
  | 0 => s.iv
  | i + 1 => (f (s.chain f i) (s.bufferBlock i)).2

theorem modeLoop_chain (s : State) (f : BlockStep) (i : Nat) :
    (modeLoop f s.dptr.toNat i (s.dmem, s.iv)).2 = s.chain f i := by
  induction i with
  | zero => rfl
  | succ i ih => rw [chain_modeLoop_succ, ih, State.chain]

/-! ### What a mode command leaves behind (R151, R152) -/

/-- `t` is `s` after the mode command with the block step `f`: the block step under the schedule of the present key made
each block of the buffer, and nothing else of DMEM changed. -/
structure ModeResult (f : Vector Word 60 → Nat → BlockStep) (s t : State) : Prop where
  after : s.afterMode t
  block : ∀ i, i < s.dlen.toNat / 16 → t.bufferBlock i =
    (f t.sched (rounds s.ksel) (s.chain (f t.sched (rounds s.ksel)) i) (s.bufferBlock i)).1
  outside : ∀ a, s.outsideBuffer a → t.dmem.read a = s.dmem.read a

theorem expandSchedule_setDmem_succeed_eq (s : State) (m : Memory) : (s.expandSchedule.setDmem m).succeed =
    { s.expandSchedule.succeed with dmem := m } := rfl

theorem afterMode_expandSchedule (s : State) (m : Memory) : s.afterMode (s.expandSchedule.setDmem m).succeed := by
  rw [expandSchedule_setDmem_succeed_eq, expandSchedule_succeed_eq]
  exact ⟨rfl, getElem_mergeSchedule_expandKey s.key s.ksel s.sched⟩

theorem runMode_result (f : Vector Word 60 → Nat → BlockStep) {s : State} (hok : s.bufferOk) :
    ∃ t, runMode f s = .next t ∧ ModeResult f s t := by
  refine ⟨_, runMode_passed hok, afterMode_expandSchedule s _, fun i hi => ?block, fun a ha => ?outside⟩
  case block =>
    simp only [State.bufferBlock, State.succeed_dmem, State.setDmem_dmem, State.succeed_dptr, State.setDmem_dptr,
      State.expandSchedule_dptr, State.succeed_sched, State.setDmem_sched]
    rw [readBlock_modeLoop_done _ _ _ _ _ hi, modeLoop_chain]
  case outside =>
    simp only [State.succeed_dmem, State.setDmem_dmem]
    exact read_modeLoop_outside _ _ _ _ _ (outsideBuffer_bounds ha)

/-! What a later command finds of the registers and the buffer. -/

section AfterMode

variable {s t : State} (h : s.afterMode t)

include h

theorem afterMode_key : t.key = s.key := by rw [h.1]
theorem afterMode_iv : t.iv = s.iv := by rw [h.1]
theorem afterMode_ksel : t.ksel = s.ksel := by rw [h.1]
theorem afterMode_dptr : t.dptr = s.dptr := by rw [h.1]
theorem afterMode_dlen : t.dlen = s.dlen := by rw [h.1]
theorem afterMode_cfg : t.cfg = s.cfg := by rw [h.1]
theorem afterMode_status : t.status = { s.status with err := false, cause := .none, schedValid := true } := by rw [h.1]

/-- The next mode command finds the same buffer. -/
theorem afterMode_bufferOk (hok : s.bufferOk) : t.bufferOk := by
  simpa only [State.bufferOk, afterMode_dptr h, afterMode_dlen h, afterMode_cfg h] using hok

/-- The next mode command computes the same schedule. -/
theorem afterMode_sched_again {u : State} (hu : t.afterMode u) : u.sched = t.sched := by
  refine Vector.ext fun i hi => ?_
  have hagain := hu.2 ⟨i, hi⟩
  have hfirst := h.2 ⟨i, hi⟩
  simp only [afterMode_key h, afterMode_ksel h] at hagain
  simp only [Fin.getElem_fin] at hagain hfirst
  rw [hagain]
  split
  case isTrue hlt => rw [hfirst, if_pos hlt]
  case isFalse => rfl

end AfterMode

/-- Settles O19: a failed check writes ERR and CAUSE, and a buffer that passes is rewritten as `ModeResult` says. -/
theorem modeFrame : Obligations.ModeFrame := by
  intro i s hi
  obtain ⟨f, hf⟩ := exec_mode hi s
  cases hc : modeCheck s with
  | some c => exact ⟨_, hf.trans (runMode_failed hc), rfl, fun _ _ => rfl, fun _ _ => rfl⟩
  | none =>
    obtain ⟨t, ht, hr⟩ := runMode_result f (modeCheck_eq_none.mp hc)
    refine ⟨t, hf.trans ht, ?frame, hr.outside, fun k hk => ?words⟩
    case frame =>
      rw [afterMode_status hr.after]
      exact hr.after.1
    case words => rw [hr.after.2 k, if_neg (Nat.not_lt.mpr hk)]

/-! ### ECB (R153, R154) -/

/-- Settles O30: an ECB block step is the cipher of the block. -/
theorem ecbResults : Obligations.EcbResults := by
  refine ⟨fun s hok => ?enc, fun s hok => ?dec⟩
  case enc =>
    obtain ⟨t, ht, hr⟩ := runMode_result ecbEncStep hok
    exact ⟨t, ht, hr.after, hr.block, hr.outside⟩
  case dec =>
    obtain ⟨t, ht, hr⟩ := runMode_result ecbDecStep hok
    exact ⟨t, ht, hr.after, hr.block, hr.outside⟩

/-! ### CBC (R155 to R158) -/

/-- `C_{i-1}` where the buffer holds the ciphertext `C`, and V before the first block (R156). -/
def State.previousBlock (s : State) (i : Nat) : Block := if i = 0 then s.iv else s.bufferBlock (i - 1)

theorem previousBlock_zero (s : State) : s.previousBlock 0 = s.iv := if_pos rfl

theorem previousBlock_succ (s : State) (i : Nat) : s.previousBlock (i + 1) = s.bufferBlock i := rfl

/-- CBCENC chains on the ciphertext it writes. -/
theorem chain_cbcEncStep {s t : State} (hr : ModeResult cbcEncStep s t) {i : Nat} (hi : i < s.dlen.toNat / 16) :
    s.chain (cbcEncStep t.sched (rounds s.ksel)) i = t.previousBlock i := by
  cases i with
  | zero => exact (afterMode_iv hr.after).symm
  | succ i => exact (hr.block i (by omega)).symm

/-- CBCDEC chains on the ciphertext it reads. -/
theorem chain_cbcDecStep (s : State) (w : Vector Word 60) (nr i : Nat) :
    s.chain (cbcDecStep w nr) i = s.previousBlock i := by
  cases i <;> rfl

theorem bufferBlock_cbcEncStep {s t : State} (hr : ModeResult cbcEncStep s t) {i : Nat} (hi : i < s.dlen.toNat / 16) :
    t.bufferBlock i =
      forwardCipher (xorBlock (s.bufferBlock i) (t.previousBlock i)) t.sched (rounds s.ksel) := by
  rw [hr.block i hi, chain_cbcEncStep hr hi, cbcEncStep]

theorem bufferBlock_cbcDecStep {s t : State} (hr : ModeResult cbcDecStep s t) {i : Nat} (hi : i < s.dlen.toNat / 16) :
    t.bufferBlock i =
      xorBlock (inverseCipher (s.bufferBlock i) t.sched (rounds s.ksel)) (s.previousBlock i) := by
  rw [hr.block i hi, chain_cbcDecStep, cbcDecStep]

/-- Settles O31: the chaining value is the ciphertext block just written. -/
theorem cbcEncryptionResult : Obligations.CbcEncryptionResult := by
  intro s hok
  obtain ⟨t, ht, hr⟩ := runMode_result cbcEncStep hok
  refine ⟨t, ht, hr.after, fun i hi prev hprev => ?_, hr.outside⟩
  obtain rfl : prev = t.previousBlock i := by rw [hprev, State.previousBlock, afterMode_iv hr.after]
  exact bufferBlock_cbcEncStep hr hi

/-- Settles O32: the chaining value is the ciphertext block just read. -/
theorem cbcDecryptionResult : Obligations.CbcDecryptionResult := by
  intro s hok
  obtain ⟨t, ht, hr⟩ := runMode_result cbcDecStep hok
  refine ⟨t, ht, hr.after, fun i hi prev hprev j => ?_, hr.outside⟩
  obtain rfl : prev = s.previousBlock i := hprev
  rw [bufferBlock_cbcDecStep hr hi]
  exact getElem_xorBlock _ _ j j.isLt

/-! ### Round trips (R154, R159) -/

/-- From the same chaining value `g` turns the block that `f` wrote back, and goes on with the same chaining value. -/
def BlockStep.Undoes (g f : BlockStep) : Prop := ∀ ch x, g ch (f ch x).1 = (x, (f ch x).2)

theorem ecbDecStep_undoes (w : Vector Word 60) (nr : Nat) : BlockStep.Undoes (ecbDecStep w nr) (ecbEncStep w nr) :=
  fun ch x => congrArg (·, ch) (inverseCipher_forwardCipher x w nr)

theorem cbcDecStep_undoes (w : Vector Word 60) (nr : Nat) : BlockStep.Undoes (cbcDecStep w nr) (cbcEncStep w nr) := by
  intro ch x
  simp only [cbcDecStep, cbcEncStep, inverseCipher_forwardCipher, xorBlock_xorBlock_self]

/-- The undoing command finds, block by block, the chaining values of the command before it. -/
theorem chain_of_undoes {f g : BlockStep} (hgf : BlockStep.Undoes g f) {s t : State} (hiv : t.iv = s.iv) {n : Nat}
    (hblock : ∀ i, i < n → t.bufferBlock i = (f (s.chain f i) (s.bufferBlock i)).1) {i : Nat} (hi : i ≤ n) :
    t.chain g i = s.chain f i := by
  induction i with
  | zero => exact hiv
  | succ i ih => rw [State.chain, ih (by omega), hblock i hi, hgf, State.chain]

/-- A mode command, then one whose block step undoes its block step. -/
theorem runMode_roundTrip {f g : Vector Word 60 → Nat → BlockStep} (hgf : ∀ w nr, BlockStep.Undoes (g w nr) (f w nr))
    {s : State} (hok : s.bufferOk) :
    ∃ t u, runMode f s = .next t ∧ runMode g t = .next u ∧ ∀ a, u.dmem.read a = s.dmem.read a := by
  obtain ⟨t, ht, hrt⟩ := runMode_result f hok
  obtain ⟨u, hu, hru⟩ := runMode_result g (afterMode_bufferOk hrt.after hok)
  have hdptr := afterMode_dptr hrt.after
  have hdlen := afterMode_dlen hrt.after
  refine ⟨t, u, ht, hu, read_eq_of_blocks ((afterMode_dptr hru.after).trans hdptr) (fun i hi => ?block)
    fun a ha => ?outside⟩
  case block =>
    have hchain : t.chain (g t.sched (rounds s.ksel)) i = s.chain (f t.sched (rounds s.ksel)) i :=
      chain_of_undoes (hgf _ _) (afterMode_iv hrt.after) hrt.block hi.le
    rw [hru.block i (hdlen ▸ hi), afterMode_sched_again hrt.after hru.after, afterMode_ksel hrt.after, hchain,
      hrt.block i hi, hgf]
  case outside =>
    have ha' : t.outsideBuffer a := by simpa only [State.outsideBuffer, hdptr, hdlen] using ha
    exact (hru.outside a ha').trans (hrt.outside a ha)

/-- Settles O46: the ECB block steps undo each other. -/
theorem ecbRoundTrip : Obligations.EcbRoundTrip := fun _ => runMode_roundTrip ecbDecStep_undoes

/-- Settles O47: the CBC block steps undo each other under one chaining value. -/
theorem cbcRoundTrip : Obligations.CbcRoundTrip := fun _ => runMode_roundTrip cbcDecStep_undoes

/-! ### A corrupted ciphertext block (R159) -/

theorem inverseCipher_injective (w : Vector Word 60) (nr : Nat) : Function.Injective fun b => inverseCipher b w nr :=
  Function.LeftInverse.injective (g := fun b => forwardCipher b w nr) fun b => forwardCipher_inverseCipher b w nr

theorem xorBlock_left_injective (y : Block) : Function.Injective fun x => xorBlock x y :=
  Function.LeftInverse.injective (g := fun x => xorBlock x y) fun x => xorBlock_xorBlock_self x y

theorem xor_xor_xor_cancel_left (a b c : Byte) : (a ^^^ b) ^^^ (a ^^^ c) = b ^^^ c := by
  rw [BitVec.xor_comm a b, BitVec.xor_assoc, ← BitVec.xor_assoc a a, BitVec.xor_self, BitVec.zero_xor]

/-- The schedule a mode command computes does not depend on DMEM. -/
theorem afterMode_sched_dmem {s t u : State} {m : Memory} (ht : s.afterMode t)
    (hu : ({ s with dmem := m } : State).afterMode u) : u.sched = t.sched :=
  Vector.ext fun i hi => (hu.2 ⟨i, hi⟩).trans (ht.2 ⟨i, hi⟩).symm

/-- Settles O48: a decrypted block is made of its own ciphertext block and the one before it, and both the inverse
cipher and the XOR are injective. -/
theorem cbcErrorPropagation : Obligations.CbcErrorPropagation := by
  intro s m i hok hi hsame hdiff
  obtain ⟨t, ht, hrt⟩ := runMode_result cbcDecStep hok
  obtain ⟨u, hu, hru⟩ := runMode_result cbcDecStep (s := { s with dmem := m }) hok
  have hblock : ∀ k, k < s.dlen.toNat / 16 → u.bufferBlock k =
      xorBlock (inverseCipher (({ s with dmem := m } : State).bufferBlock k) t.sched (rounds s.ksel))
        (({ s with dmem := m } : State).previousBlock k) := fun k hk =>
    afterMode_sched_dmem hrt.after hru.after ▸ bufferBlock_cbcDecStep hru hk
  have hprev : ∀ k, k < s.dlen.toNat / 16 → k ≠ i + 1 →
      ({ s with dmem := m } : State).previousBlock k = s.previousBlock k := by
    intro k hk hne
    cases k with
    | zero => exact (previousBlock_zero _).trans (previousBlock_zero s).symm
    | succ k => exact hsame k (by omega) (by omega)
  refine ⟨t, u, ht, hu, ?own, fun hi' j => ?next, fun k hk hne hne' => ?others⟩
  case own =>
    rw [hblock i hi, bufferBlock_cbcDecStep hrt hi, hprev i hi (by omega)]
    exact fun h => hdiff (inverseCipher_injective _ _ (xorBlock_left_injective _ h))
  case next =>
    simp only [hblock _ hi', bufferBlock_cbcDecStep hrt hi', hsame _ hi' (Nat.succ_ne_self i), previousBlock_succ,
      Fin.getElem_fin, getElem_xorBlock, xor_xor_xor_cancel_left]
  case others => rw [hblock k hk, bufferBlock_cbcDecStep hrt hk, hsame k hk hne, hprev k hk hne']

end Sys2Proof.Machine

/-!
PROOF. The host's register accesses (46_system.md R171, 10_state.md R30, R37): a read answers the register's word, and
a write stores its value.
-/

namespace Sys2Proof.Machine

/-! ### Register reads -/

/-- A read at the offset of a register answers that register's word (R171). -/
theorem hostOp_regRead_offset (r : Reg) (s : State) :
    hostOp (.regRead r.offset) s = .next (s.reply (.word (s.readReg r))) := by
  simp only [hostOp, hostRegRead, regAt_offset]

/-- The four parts of STATUS side by side (R30). The cases are its 2 * 2 * 2 * 7 values. -/
theorem toNat_statusWord (st : Status) : (statusWord st).toNat =
    st.err.toNat + 2 * st.schedValid.toNat + 4 * st.fatal.toNat + 16 * st.cause.code := by
  obtain ⟨err, schedValid, fatal, cause⟩ := st
  revert err schedValid fatal
  cases cause <;> decide

/-- A word is word `j` of a byte register if its bytes are bytes 4j..4j+3 (R37). -/
theorem eq_wordAt {n : Nat} {x : Vector Byte n} {j : Nat} {v : Word} (hj : 4 * j + 3 < n)
    (h : ∀ r : Fin 4, byteOf v r.val = x[4 * j + r.val]) : v = wordAt x j := by
  have hbyte (r : Nat) (hr : r < 4) : x.getD (4 * j + r) 0 = byteOf v r := by
    simp [Vector.getD, show 4 * j + r < n by omega, h ⟨r, hr⟩]
  rw [wordAt, hbyte 1 (by decide), hbyte 2 (by decide), hbyte 3 (by decide), ← Nat.add_zero (4 * j),
    hbyte 0 (by decide), pack_byteOf]

/-- Settles O50: the value named at each offset is the word of the register that stands there. -/
theorem registerReads : Obligations.RegisterReads := by
  intro s off v h
  suffices hreg : ∃ r : Reg, off = r.offset ∧ v = s.readReg r by
    obtain ⟨r, rfl, rfl⟩ := hreg
    exact hostOp_regRead_offset r s
  obtain ⟨hoff, hv⟩ | ⟨hoff, hv⟩ | ⟨hoff, hv⟩ | ⟨hoff, hv⟩ | ⟨hoff, hv⟩ | ⟨hoff, hv⟩ | ⟨j, hoff, hv⟩ | ⟨c, hoff, hv⟩ |
    ⟨c, hoff, hv⟩ | ⟨i, hoff, hv⟩ := h
  · exact ⟨.cmd, hoff, hv⟩
  · exact ⟨.status, hoff, BitVec.eq_of_toNat_eq (hv.trans (toNat_statusWord s.status).symm)⟩
  · exact ⟨.ksel, hoff, hv⟩
  · exact ⟨.res, hoff, BitVec.eq_of_toNat_eq (hv.trans (BitVec.toNat_setWidth_of_le (by decide)).symm)⟩
  · exact ⟨.dptr, hoff, hv⟩
  · exact ⟨.dlen, hoff, hv⟩
  · exact ⟨.key j, hoff, eq_wordAt (by omega) hv⟩
  · exact ⟨.blk c, hoff, eq_wordAt (by omega) hv⟩
  · exact ⟨.iv c, hoff, eq_wordAt (by omega) hv⟩
  · exact ⟨.rk i, hoff, hv⟩

/-! ### Register writes -/

/-- Settles O51: each write is `storeReg` of the register at its offset. -/
theorem registerWrites : Obligations.RegisterWrites := by
  refine fun s v => ⟨⟨?status, ?res, fun i => ?rk⟩, ?ksel, ?dptr, ?dlen, fun j => ?key, fun c => ?blk, fun c => ?iv⟩
  case status => exact hostOp_regWrite_offset (r := .status) (by decide) v s
  case res => exact hostOp_regWrite_offset (r := .res) (by decide) v s
  case rk => exact hostOp_regWrite_offset (r := .rk i) (by simp) v s
  case ksel => exact hostOp_regWrite_offset (r := .ksel) (by decide) v s
  case dptr => exact hostOp_regWrite_offset (r := .dptr) (by decide) v s
  case dlen => exact hostOp_regWrite_offset (r := .dlen) (by decide) v s
  case key => exact ⟨_, hostOp_regWrite_offset (r := .key j) (by simp) v s, rfl, fun k => getElem_setWordAt ..⟩
  case blk => exact ⟨_, hostOp_regWrite_offset (r := .blk c) (by simp) v s, rfl, fun k => getElem_setWordAt ..⟩
  case iv => exact ⟨_, hostOp_regWrite_offset (r := .iv c) (by simp) v s, rfl, fun k => getElem_setWordAt ..⟩

end Sys2Proof.Machine

/-!
PROOF. The system (46_system.md R170 to R175): NOP, how a write to CMD ends, where a step has no next state, and what a
step leaves to the host.
-/

namespace Sys2Proof.Machine

/-! ### Commands written to CMD -/

/-- Settles O20: NOP succeeds and does no more, so of STATUS it leaves SCHED_VALID and FATAL, which 0x21 has at 0. -/
theorem nopResult : Obligations.NopResult := by
  refine ⟨fun s => rfl, rfl, ⟨_, rfl⟩, fun s hf => runCommand_fatal hf 0, fun s hs => ?_⟩
  have hsum : s.status.err.toNat + 2 * s.status.schedValid.toNat + 4 * s.status.fatal.toNat +
      16 * s.status.cause.code = 0x21 := by
    rw [← toNat_statusWord, hs]
    rfl
  have herr := s.status.err.toNat_le
  have hvalid_le := s.status.schedValid.toNat_le
  have hfatal_le := s.status.fatal.toNat_le
  have hvalid : s.status.schedValid = false := Bool.toNat_eq_zero.mp (by omega)
  have hfatal : s.status.fatal = false := Bool.toNat_eq_zero.mp (by omega)
  refine ⟨s.succeed, (hostRegWrite_cmd 0 s).trans (runCommand_decoded (i := .nop) hfatal rfl), BitVec.eq_of_toNat_eq ?_⟩
  rw [toNat_statusWord]
  simp [hvalid, hfatal, Cause.code]

/-- `s` after a failure with cause `c`, if FATAL was 0: nothing changed but ERR, CAUSE and, for the fatal cause,
FATAL (R172). -/
def State.failed (s : State) (c : Cause) : State :=
  { s with status := { s.status with err := true, cause := c, fatal := decide (c = .roundRange) } }

theorem raiseError_eq_failed {s : State} (hf : s.status.fatal = false) {c : Cause} (hc : c ≠ .roundRange) :
    s.raiseError c = s.failed c := by
  simp [State.raiseError, State.setStatus, statusError, State.failed, hf, hc]

theorem raiseFatal_eq_failed (s : State) : s.raiseFatal .roundRange = s.failed .roundRange := rfl

/-- An effect that is not a failure ends in success, for FATAL stays 0. -/
theorem commandEffect_succeeds_or_fails {i : Instr} {s t : State} (hf : s.status.fatal = false)
    (h : CommandEffect i s t) :
    (t.status.err = false ∧ t.status.cause = .none ∧ t.status.fatal = false) ∨
      ∃ c, c ≠ Cause.none ∧ t = s.failed c := by
  cases h with
  | error c hnone hrange => exact .inr ⟨c, hnone, raiseError_eq_failed hf hrange⟩
  | fatal => exact .inr ⟨.roundRange, by decide, raiseFatal_eq_failed s⟩
  | nothing | byte | block | schedule | buffer => exact .inl ⟨rfl, rfl, hf⟩

/-- Settles O8: an illegal word fails, and a command has one of its effects. -/
theorem commandSucceedsOrChangesNothing : Obligations.CommandSucceedsOrChangesNothing := by
  refine fun w s => ⟨fun hf => runCommand_fatal hf w, fun hf => ?_⟩
  rw [hostRegWrite_cmd]
  obtain ⟨e, hw⟩ | ⟨i, hw⟩ := decode_cases w
  · exact ⟨_, runCommand_illegal hf hw, .inr ⟨.illegalCmd, by decide, raiseError_eq_failed hf (by decide)⟩⟩
  · obtain ⟨t, ht, he⟩ := exec_effect i s
    refine ⟨t, (runCommand_decoded hf hw).trans ht, ?_⟩
    exact (commandEffect_succeeds_or_fails hf he).imp_left fun hok => ⟨i, hw, ht, hok⟩

/-- A write to CMD always completes (R172). -/
theorem runCommand_completes (w : Word) (s : State) : ∃ t, runCommand w s = .next t := by
  obtain ⟨hfatal, hrun⟩ := commandSucceedsOrChangesNothing w s
  cases hf : s.status.fatal with
  | true => exact ⟨s, hfatal hf⟩
  | false =>
    obtain ⟨t, ht, _⟩ := hrun hf
    exact ⟨t, ht⟩

/-! ### Where a step stops -/

/-- A host operation is answered, or it is an access outside one of the two maps, which is refused (U3, U4). -/
theorem hostOp_answers_or_refuses (op : HostOp) (s : State) :
    (∃ t, hostOp op s = .next t) ∨
    (∃ off, regAt off = none ∧ (op = .regRead off ∨ ∃ v, op = .regWrite off v) ∧
      hostOp op s = .refused (.reservedOffset off)) ∨
    (∃ addr, s.cfg.dmemBytes ≤ addr ∧ (op = .dmemRead addr ∨ ∃ v, op = .dmemWrite addr v) ∧
      hostOp op s = .refused (.dmemOutOfRange addr)) := by
  cases op with
  | regRead off =>
    cases hoff : regAt off with
    | none => exact .inr (.inl ⟨off, hoff, .inl rfl, by simp only [hostOp, hostRegRead, hoff]⟩)
    | some r => exact .inl ⟨_, offset_of_regAt hoff ▸ hostOp_regRead_offset r s⟩
  | regWrite off v =>
    cases hoff : regAt off with
    | none => exact .inr (.inl ⟨off, hoff, .inr ⟨v, rfl⟩, by simp only [hostOp, hostRegWrite, hoff]⟩)
    | some r =>
      obtain rfl := offset_of_regAt hoff
      by_cases hr : r = .cmd
      · subst hr
        exact .inl (runCommand_completes v s)
      · exact .inl ⟨_, hostOp_regWrite_offset hr v s⟩
  | dmemRead addr =>
    by_cases ha : addr < s.cfg.dmemBytes
    · exact .inl ⟨_, if_pos ha⟩
    · exact .inr (.inr ⟨addr, Nat.not_lt.mp ha, .inl rfl, if_neg ha⟩)
  | dmemWrite addr v =>
    by_cases ha : addr < s.cfg.dmemBytes
    · exact .inl ⟨_, if_pos ha⟩
    · exact .inr (.inr ⟨addr, Nat.not_lt.mp ha, .inr ⟨v, rfl⟩, if_neg ha⟩)
  | reset => exact .inl ⟨_, rfl⟩

/-- Settles O10: an idle core has a next state, and a pending operation is answered or refused. -/
theorem stepStopsOnlyOutsideTheMaps : Obligations.StepStopsOnlyOutsideTheMaps := by
  intro s
  cases hhost : s.host with
  | nil => exact .inl ⟨s, step_idle hhost⟩
  | cons op rest =>
    rw [step_pending hhost]
    obtain hnext | ⟨off, hoff, hop, hstop⟩ | ⟨addr, haddr, hop, hstop⟩ :=
      hostOp_answers_or_refuses op { s with host := rest }
    · exact .inl hnext
    · exact .inr (.inl ⟨off, rest, hoff, by simpa using hop, hstop⟩)
    · exact .inr (.inr ⟨addr, rest, haddr, by simpa using hop, hstop⟩)

/-! ### What a step leaves to the host -/

theorem storeReg_host (s : State) (r : Reg) (v : Word) : (s.storeReg r v).host = s.host := by
  cases r <;> simp [State.storeReg]

theorem storeReg_replies (s : State) (r : Reg) (v : Word) : (s.storeReg r v).replies = s.replies := by
  cases r <;> simp [State.storeReg]

theorem resetCore_host (s : State) : s.resetCore.host = s.host := by simp only [State.resetCore]

theorem resetCore_replies (s : State) : s.resetCore.replies = s.replies := by simp only [State.resetCore]

/-- A word written to CMD does nothing to the configuration and to the host (R172). -/
theorem runCommand_frame {w : Word} {s t : State} (h : runCommand w s = .next t) :
    t.cfg = s.cfg ∧ t.host = s.host ∧ t.replies = s.replies := by
  obtain ⟨_, rfl⟩ | ⟨_, rfl⟩ | ⟨_, i, _, he⟩ := runCommand_cases h
  · exact ⟨rfl, rfl, rfl⟩
  · exact ⟨rfl, rfl, rfl⟩
  · obtain ⟨_, ⟨hcfg, hhost, hreplies, _⟩, _⟩ := commandFrame i s t he
    exact ⟨hcfg, hhost, hreplies⟩

/-- A host operation changes neither the configuration nor what is pending, and only a read gives a value (R171). -/
theorem hostOp_frame {op : HostOp} {s t : State} (h : hostOp op s = .next t) :
    t.cfg = s.cfg ∧ t.host = s.host ∧
      (t.replies = s.replies ∨
        ∃ r, t.replies = s.replies ++ [r] ∧ ((∃ off, op = .regRead off) ∨ ∃ addr, op = .dmemRead addr)) := by
  obtain ⟨off, _, rfl, _, rfl⟩ | ⟨_, _, _, _, hrun⟩ | ⟨_, v, r, _, _, _, rfl⟩ | ⟨addr, rfl, _, rfl⟩ |
    ⟨_, _, _, _, rfl⟩ | ⟨_, rfl⟩ := hostOp_cases h
  · exact ⟨rfl, rfl, .inr ⟨_, rfl, .inl ⟨off, rfl⟩⟩⟩
  · obtain ⟨hcfg, hhost, hreplies⟩ := runCommand_frame hrun
    exact ⟨hcfg, hhost, .inl hreplies⟩
  · exact ⟨storeReg_cfg s r v, storeReg_host s r v, .inl (storeReg_replies s r v)⟩
  · exact ⟨rfl, rfl, .inr ⟨_, rfl, .inr ⟨addr, rfl⟩⟩⟩
  · exact ⟨rfl, rfl, .inl rfl⟩
  · exact ⟨resetCore_cfg s, resetCore_host s, .inl (resetCore_replies s)⟩

/-- Settles O16: the step takes the oldest operation off, and that operation changes no more of what the host has than
the value it reads. -/
theorem stepTakesOneOperation : Obligations.StepTakesOneOperation := by
  intro s t h
  cases hhost : s.host with
  | nil =>
    cases (step_idle hhost).symm.trans h
    exact ⟨rfl, hhost, .inl rfl⟩
  | cons op rest =>
    obtain ⟨hcfg, hrest, hreplies⟩ := hostOp_frame ((step_pending hhost).symm.trans h)
    refine ⟨hcfg, hrest, hreplies.imp_right ?_⟩
    rintro ⟨r, hr, hop⟩
    exact ⟨r, rest, hr, by simpa using hop⟩

end Sys2Proof.Machine

/-!
PROOF. The Reset operation (70_reset_and_hazards.md R210), FATAL, which only Reset clears (60_exceptions.md R186), and
what works straight after Reset (70_reset_and_hazards.md R211).
-/

namespace Sys2Proof.Machine

/-! ### The Reset operation -/

theorem hostOp_reset (s : State) : hostOp .reset s = .next s.resetCore := rfl

@[simp] theorem resetCore_status (s : State) : s.resetCore.status = Status.reset := rfl
@[simp] theorem resetCore_ksel (s : State) : s.resetCore.ksel = 0 := rfl
@[simp] theorem resetCore_dptr (s : State) : s.resetCore.dptr = 0 := rfl
@[simp] theorem resetCore_dlen (s : State) : s.resetCore.dlen = 0 := rfl
@[simp] theorem resetCore_res (s : State) : s.resetCore.res = 0 := rfl

/-- Settles O55: the fields of the state that Reset leaves. -/
theorem resetEffect : Obligations.ResetEffect := fun s =>
  ⟨s.resetCore, hostOp_reset s, rfl, rfl, rfl, rfl, resetCore_ksel s, resetCore_dptr s, resetCore_dlen s,
    resetCore_res s, resetCore_dmem s, resetCore_cfg s, resetCore_host s, resetCore_replies s⟩

/-! ### FATAL is sticky -/

/-- A register write reaches no part of STATUS but SCHED_VALID (R31). -/
theorem storeReg_status (s : State) (r : Reg) (v : Word) :
    ∃ b, (s.storeReg r v).status = statusSchedValid b s.status := by
  by_cases hr : r = .ksel ∨ ∃ j, r = .key j
  · exact ⟨false, storeReg_status_key s v hr⟩
  · exact ⟨s.status.schedValid, storeReg_status_other s v hr⟩

/-- While FATAL is 1 no command runs, so what the host does other than Reset reaches no part of STATUS but
SCHED_VALID. -/
theorem hostOp_status_of_fatal {op : HostOp} {s t : State} (hf : s.status.fatal = true) (hop : op ≠ .reset)
    (h : hostOp op s = .next t) : ∃ b, t.status = statusSchedValid b s.status := by
  obtain ⟨_, _, _, _, rfl⟩ | ⟨_, w, _, _, hrun⟩ | ⟨_, v, r, _, _, _, rfl⟩ | ⟨_, _, _, rfl⟩ | ⟨_, _, _, _, rfl⟩ |
    ⟨hreset, _⟩ := hostOp_cases h
  · exact ⟨s.status.schedValid, rfl⟩
  · cases (runCommand_fatal hf w).symm.trans hrun
    exact ⟨s.status.schedValid, rfl⟩
  · exact storeReg_status s r v
  · exact ⟨s.status.schedValid, rfl⟩
  · exact ⟨s.status.schedValid, rfl⟩
  · exact absurd hreset hop

/-- Settles O17: under FATAL a word written to CMD is ignored, and no other operation but Reset reaches ERR, CAUSE or
FATAL. -/
theorem fatalStaysUntilReset : Obligations.FatalStaysUntilReset := by
  refine fun s hf => ⟨fun w => (hostRegWrite_cmd w s).trans (runCommand_fatal hf w), fun op t hop h => ?sticky,
    ⟨_, hostOp_reset s, rfl⟩⟩
  case sticky =>
    obtain ⟨b, hb⟩ := hostOp_status_of_fatal hf hop h
    rw [hb]
    exact ⟨hf, rfl, rfl⟩

/-! ### Straight after Reset -/

/-- NOP, the byte-level commands and the transforms that read no round key succeed in every state. -/
theorem exec_needing_nothing_succeeds {i : Instr} (s : State) (hi : i = .nop ∨ writesRes i = true ∨
    i ∈ [.subbytes, .invsubbytes, .shiftrows, .invshiftrows, .mixcolumns, .invmixcolumns]) :
    ∃ t, exec i s = .next t ∧ t.status.err = false := by
  cases i with
  | nop | gfmul | gfinv | sbox | isbox => exact ⟨_, rfl, rfl⟩
  | subbytes | invsubbytes | shiftrows | invshiftrows | mixcolumns | invmixcolumns => exact ⟨_, rfl, rfl⟩
  | _ => simp [writesRes] at hi

/-- EXPANDKEY under a KSEL of 0 expands for AES-256, which fills all of W (R27, R134). -/
theorem getElem_expandSchedule_of_ksel_zero {s : State} (h : s.ksel = 0) (i : Fin 60) :
    s.expandSchedule.succeed.sched[i] = (expandKey s.key 8 60).getD i.val 0 := by
  have hword := getElem_mergeSchedule_expandKey s.key s.ksel s.sched i
  rw [h, show keyWords 0 = 8 from rfl, show schedWords 0 = 60 from rfl, if_pos i.isLt] at hword
  rwa [State.succeed_sched, State.expandSchedule_sched, h]

/-- After Reset the first of the buffer checks fails, for DLEN is 0 (R150). -/
theorem modeCheck_resetCore (s : State) : modeCheck s.resetCore = some .lenZero := by
  rw [modeCheck, resetCore_dlen]
  rfl

/-- Settles O57: of what Reset leaves only STATUS, KSEL and DLEN decide how these commands end: SCHED_VALID = 0 gives
NO_SCHEDULE, DLEN = 0 gives LEN_ZERO, and KSEL = 0 selects AES-256. -/
theorem firstCommandsAfterReset : Obligations.FirstCommandsAfterReset := by
  intro s t h
  obtain rfl : s.resetCore = t := Host.Outcome.next.inj h
  have hvalid : s.resetCore.status.schedValid = false := rfl
  refine ⟨⟨_, hostOp_regRead_offset .status _, ?reads⟩, fun i => exec_needing_nothing_succeeds _,
    fun i hi => ⟨_, exec_noSchedule hvalid hi, ?noSchedule, State.raiseError_block _ _⟩,
    fun i hi => ⟨_, exec_mode_failed hi (modeCheck_resetCore s), ?lenZero, State.raiseError_dmem _ _⟩, ?expand⟩
  case reads => rw [State.reply_replies, State.readReg, resetCore_status, show statusWord Status.reset = 0 by decide]
  case noSchedule | lenZero =>
    rw [State.raiseError_status, resetCore_status]
    decide
  case expand =>
    refine ⟨_, exec_expandkey _, ?_, getElem_expandSchedule_of_ksel_zero (resetCore_ksel s)⟩
    rw [State.succeed_status, State.expandSchedule_status, resetCore_status]
    decide

end Sys2Proof.Machine
